-- ==== Sys2Proof/Word.lean ====
section
/-! DEFINITION. The word types of the Intel 8008: 8-bit data (00_scope.md R6, R10) and 14-bit
addresses (R6, R8). Bit 0 is the least significant bit everywhere (R8). -/

namespace Sys2Proof

/-- A byte: every register, datum and instruction byte (R6 "Data word and register width"). -/
abbrev Byte := BitVec 8

/-- A 14-bit address: what the bus carries and what an address-stack register holds (R6, R25). -/
abbrev Addr := BitVec 14

/-- The 3-bit address-stack pointer (10_state.md R26). -/
abbrev StackPtr := BitVec 3

end Sys2Proof
end

