-- ==== Sys2Proof/Syntax.lean ====
section
/-! DEFINITION. The instructions of the 8008: one constructor of `Instr` for each row of
spec/opcode_table.json (30_encoding.md R80 to R99). -/

namespace Sys2Proof

/-- The seven registers a code 000 to 110 names (10_state.md R20, R21). -/
inductive Reg where
  | a | b | c | d | e | h | l
deriving DecidableEq, Repr

/-- The flag a conditional instruction tests (10_state.md R32; 30_encoding.md R87). -/
inductive Cond where
  | carry | zero | sign | parity
deriving DecidableEq, Repr

/-- The instructions. Bits that the processor ignores (30_encoding.md R97) are no part of a term
(log 26). The arguments stand in the order of the source's mnemonics. -/
inductive Instr where
  /-- HLT, first bytes 00 and 01 (45_machine.md R200). -/
  | hlt
  /-- HLT, first byte FF (45_machine.md R200). -/
  | hltFF
  /-- The undefined first byte 22 (30_encoding.md R96). -/
  | undefined22
  /-- The undefined first byte 2A (30_encoding.md R96). -/
  | undefined2A
  /-- The undefined first byte 32 (30_encoding.md R96). -/
  | undefined32
  /-- The undefined first byte 3A (30_encoding.md R96). -/
  | undefined3A
  /-- The undefined first byte 38 (30_encoding.md R96). -/
  | undefined38
  /-- The undefined first byte 39 (30_encoding.md R96). -/
  | undefined39
  /-- RLC, rotate left around the carry (42_rotate.md R161). -/
  | rlc
  /-- RRC, rotate right around the carry (42_rotate.md R162). -/
  | rrc
  /-- RAL, rotate left through the carry (42_rotate.md R163). -/
  | ral
  /-- RAR, rotate right through the carry (42_rotate.md R164). -/
  | rar
  /-- INr, increment register, r not A (40_index_register.md R116). -/
  | inr (r : Reg)
  /-- DCr, decrement register, r not A (40_index_register.md R117). -/
  | dcr (r : Reg)
  /-- RFc, return if condition false (43_control_transfer.md R178). -/
  | rfc (c : Cond)
  /-- RTc, return if condition true (43_control_transfer.md R179). -/
  | rtc (c : Cond)
  /-- ADI, add immediate (41_accumulator_alu.md R132). -/
  | adi (v : Byte)
  /-- ACI, add immediate with carry (R135). -/
  | aci (v : Byte)
  /-- SUI, subtract immediate (R138). -/
  | sui (v : Byte)
  /-- SBI, subtract immediate with borrow (R141). -/
  | sbi (v : Byte)
  /-- NDI, AND immediate (R144). -/
  | ndi (v : Byte)
  /-- XRI, exclusive-OR immediate (R147). -/
  | xri (v : Byte)
  /-- ORI, inclusive-OR immediate (R150). -/
  | ori (v : Byte)
  /-- CPI, compare immediate (R153). -/
  | cpi (v : Byte)
  /-- RST, restart at 8 * AAA (43_control_transfer.md R180). -/
  | rst (aaa : BitVec 3)
  /-- LMI, load memory immediate (40_index_register.md R115). -/
  | lmi (v : Byte)
  /-- LrI, load register immediate (40_index_register.md R114). -/
  | lri (r : Reg) (v : Byte)
  /-- RET, return unconditionally (43_control_transfer.md R177). -/
  | ret
  /-- INP, input from device MMM (44_input_output.md R191). -/
  | inp (port : BitVec 3)
  /-- OUT, output to device RRMMM, 8 to 31 (44_input_output.md R192). -/
  | out (port : BitVec 5)
  /-- JMP, jump unconditionally (43_control_transfer.md R171). -/
  | jmp (target : Addr)
  /-- CAL, call unconditionally (43_control_transfer.md R174). -/
  | cal (target : Addr)
  /-- JFc, jump if condition false (43_control_transfer.md R172). -/
  | jfc (c : Cond) (target : Addr)
  /-- JTc, jump if condition true (43_control_transfer.md R173). -/
  | jtc (c : Cond) (target : Addr)
  /-- CFc, call if condition false (43_control_transfer.md R175). -/
  | cfc (c : Cond) (target : Addr)
  /-- CTc, call if condition true (43_control_transfer.md R176). -/
  | ctc (c : Cond) (target : Addr)
  /-- ADM, add memory (41_accumulator_alu.md R131). -/
  | adm
  /-- ADr, add register (R130). -/
  | adr (r : Reg)
  /-- ACM, add memory with carry (R134). -/
  | acm
  /-- ACr, add register with carry (R133). -/
  | acr (r : Reg)
  /-- SUM, subtract memory (R137). -/
  | sum
  /-- SUr, subtract register (R136). -/
  | sur (r : Reg)
  /-- SBM, subtract memory with borrow (R140). -/
  | sbm
  /-- SBr, subtract register with borrow (R139). -/
  | sbr (r : Reg)
  /-- NDM, AND memory (R143). -/
  | ndm
  /-- NDr, AND register (R142). -/
  | ndr (r : Reg)
  /-- XRM, exclusive-OR memory (R146). -/
  | xrm
  /-- XRr, exclusive-OR register (R145). -/
  | xrr (r : Reg)
  /-- ORM, inclusive-OR memory (R149). -/
  | orm
  /-- ORr, inclusive-OR register (R148). -/
  | orr (r : Reg)
  /-- CPM, compare memory (R152). -/
  | cpm
  /-- CPr, compare register (R151). -/
  | cpr (r : Reg)
  /-- LrM, load register from memory (40_index_register.md R112). -/
  | lrm (r : Reg)
  /-- LMr, load memory from register (40_index_register.md R113). -/
  | lmr (r : Reg)
  /-- Lr1r2, load register r1 from register r2 (40_index_register.md R111). -/
  | lrr (r1 r2 : Reg)
deriving DecidableEq, Repr

end Sys2Proof
end

