-- ==== Sys2Proof/WellFormed.lean ====
section
/-! DEFINITION. Which terms of `Instr` stand for an instruction: A has no increment or decrement
(30_encoding.md R92) and an output port number has RR not 00 (R89). Every other argument is
admitted at every value of its type. -/

namespace Sys2Proof

/-- The operand checks of 30_encoding.md R89 and R92. -/
def Instr.wellFormed (i : Instr) : Bool :=
  match i with
  | .inr r => decide (r ≠ .a)
  | .dcr r => decide (r ≠ .a)
  | .out port => decide (8 ≤ port.toNat)
  | .hlt | .hltFF | .undefined22 | .undefined2A | .undefined32 | .undefined3A | .undefined38
  | .undefined39 | .rlc | .rrc | .ral | .rar | .rfc _ | .rtc _ | .adi _ | .aci _ | .sui _ | .sbi _
  | .ndi _ | .xri _ | .ori _ | .cpi _ | .rst _ | .lmi _ | .lri _ _ | .ret | .inp _ | .jmp _
  | .cal _ | .jfc _ _ | .jtc _ _ | .cfc _ _ | .ctc _ _ | .adm | .adr _ | .acm | .acr _ | .sum
  | .sur _ | .sbm | .sbr _ | .ndm | .ndr _ | .xrm | .xrr _ | .orm | .orr _ | .cpm | .cpr _
  | .lrm _ | .lmr _ | .lrr _ _ => true

/-- The instruction is one that some bytes decode to. -/
abbrev Instr.WellFormed (i : Instr) : Prop := i.wellFormed = true

/-- The six rows of the table to which the source gives no meaning (30_encoding.md R96). -/
def Instr.isUndefined (i : Instr) : Bool :=
  match i with
  | .undefined22 | .undefined2A | .undefined32 | .undefined3A | .undefined38 | .undefined39 => true
  | .hlt | .hltFF | .rlc | .rrc | .ral | .rar | .inr _ | .dcr _ | .rfc _ | .rtc _ | .adi _ | .aci _
  | .sui _ | .sbi _ | .ndi _ | .xri _ | .ori _ | .cpi _ | .rst _ | .lmi _ | .lri _ _ | .ret
  | .inp _ | .out _ | .jmp _ | .cal _ | .jfc _ _ | .jtc _ _ | .cfc _ _ | .ctc _ _ | .adm | .adr _
  | .acm | .acr _ | .sum | .sur _ | .sbm | .sbr _ | .ndm | .ndr _ | .xrm | .xrr _ | .orm | .orr _
  | .cpm | .cpr _ | .lrm _ | .lmr _ | .lrr _ _ => false

end Sys2Proof
end

