-- ==== Sys2Proof/Decode.lean ====
section
/-! DEFINITION. Decoding the bytes of an instruction (30_encoding.md R81 to R97), the encoder that
writes the canonical bytes back (R97), and the bit helpers both use. -/

namespace Sys2Proof

/-- Bits 7 and 6 of a first byte, the class (30_encoding.md R81). -/
def classField (b : Byte) : BitVec 2 := b.extractLsb' 6 2

/-- Bits 5 to 3 of a first byte: DDD, PPP, AAA or T C4 C3 (30_encoding.md R81). -/
def midField (b : Byte) : BitVec 3 := b.extractLsb' 3 3

/-- Bits 2 to 0 of a first byte: SSS or a fixed pattern (30_encoding.md R81). -/
def lowField (b : Byte) : BitVec 3 := b.extractLsb' 0 3

/-- Bits 4 and 3 of a first byte, the condition C4 C3 (30_encoding.md R87). -/
def condField (b : Byte) : BitVec 2 := b.extractLsb' 3 2

/-- The sense bit T, bit 5 of a first byte (30_encoding.md R87). -/
def senseBit (b : Byte) : Bool := b.getLsbD 5

/-- The register a code names; 111 names none (10_state.md R21; 30_encoding.md R85). -/
def Reg.ofCode (code : BitVec 3) : Option Reg :=
  match code.toNat with
  | 0 => some .a
  | 1 => some .b
  | 2 => some .c
  | 3 => some .d
  | 4 => some .e
  | 5 => some .h
  | 6 => some .l
  | _ => none

/-- The code of a register (10_state.md R21). -/
def Reg.code (r : Reg) : BitVec 3 :=
  match r with
  | .a => 0
  | .b => 1
  | .c => 2
  | .d => 3
  | .e => 4
  | .h => 5
  | .l => 6

/-- The flag a code C4 C3 selects (30_encoding.md R87). -/
def Cond.ofCode (code : BitVec 2) : Cond :=
  match code.toNat with
  | 0 => .carry
  | 1 => .zero
  | 2 => .sign
  | _ => .parity

/-- The code C4 C3 of a flag (30_encoding.md R87). -/
def Cond.code (c : Cond) : BitVec 2 :=
  match c with
  | .carry => 0
  | .zero => 1
  | .sign => 2
  | .parity => 3

/-- A first byte from its three fields (30_encoding.md R81). -/
def pack (cls : BitVec 2) (mid low : BitVec 3) : Byte := cls ++ mid ++ low

/-- The middle field of a conditional instruction: T, then C4 C3 (30_encoding.md R87). -/
def condMid (sense : BitVec 1) (c : Cond) : BitVec 3 := sense ++ c.code

/-- The 14-bit target B3[5:0] ++ B2 (30_encoding.md R84). -/
def targetOf (b2 b3 : Byte) : Addr := b3.extractLsb' 0 6 ++ b2

/-- The low address byte `<B2>` of a target (30_encoding.md R84). -/
def lowAddress (t : Addr) : Byte := t.extractLsb' 0 8

/-- The high address byte `<B3>` of a target, its don't-care bits 0 (30_encoding.md R84, R97). -/
def highAddress (t : Addr) : Byte := (0 : BitVec 2) ++ t.extractLsb' 8 6

/-- Length of an instruction in bytes, by its first byte alone (30_encoding.md R90). An undefined
first byte has no length in the source; the model fetches that one byte (60_exceptions.md R211,
log 18). -/
def instrLength (b : Byte) : Nat :=
  if classField b = 1 ∧ b.getLsbD 0 = false then 3
  else if classField b = 0 ∧ lowField b = 4 then 2
  else if classField b = 0 ∧ lowField b = 6 then 2
  else 1

/-- The ALU instruction on a register with function PPP (30_encoding.md R86, R94). -/
def aluRegister (ppp : BitVec 3) (r : Reg) : Instr :=
  match ppp.toNat with
  | 0 => .adr r
  | 1 => .acr r
  | 2 => .sur r
  | 3 => .sbr r
  | 4 => .ndr r
  | 5 => .xrr r
  | 6 => .orr r
  | _ => .cpr r

/-- The ALU instruction on M with function PPP (30_encoding.md R86, R94). -/
def aluMemory (ppp : BitVec 3) : Instr :=
  match ppp.toNat with
  | 0 => .adm
  | 1 => .acm
  | 2 => .sum
  | 3 => .sbm
  | 4 => .ndm
  | 5 => .xrm
  | 6 => .orm
  | _ => .cpm

/-- The ALU immediate instruction with function PPP (30_encoding.md R86, R91). -/
def aluImmediate (ppp : BitVec 3) (v : Byte) : Instr :=
  match ppp.toNat with
  | 0 => .adi v
  | 1 => .aci v
  | 2 => .sui v
  | 3 => .sbi v
  | 4 => .ndi v
  | 5 => .xri v
  | 6 => .ori v
  | _ => .cpi v

/-- Column 000 of class 00: HLT, INr, or the undefined 38 (30_encoding.md R91, R92). -/
def decodeIncrement (ddd : BitVec 3) : Instr :=
  match Reg.ofCode ddd with
  | some .a => .hlt
  | some r => .inr r
  | none => .undefined38

/-- Column 001 of class 00: HLT, DCr, or the undefined 39 (30_encoding.md R91, R92). -/
def decodeDecrement (ddd : BitVec 3) : Instr :=
  match Reg.ofCode ddd with
  | some .a => .hlt
  | some r => .dcr r
  | none => .undefined39

/-- Column 010 of class 00: the rotates, or one of four undefined bytes (30_encoding.md R91, R92). -/
def decodeRotate (mid : BitVec 3) : Instr :=
  match mid.toNat with
  | 0 => .rlc
  | 1 => .rrc
  | 2 => .ral
  | 3 => .rar
  | 4 => .undefined22
  | 5 => .undefined2A
  | 6 => .undefined32
  | _ => .undefined3A

/-- Class 00 (30_encoding.md R91, R92). -/
def decodeClass00 (b b2 : Byte) : Instr :=
  match (lowField b).toNat with
  | 0 => decodeIncrement (midField b)
  | 1 => decodeDecrement (midField b)
  | 2 => decodeRotate (midField b)
  | 3 => if senseBit b then .rtc (Cond.ofCode (condField b)) else .rfc (Cond.ofCode (condField b))
  | 4 => aluImmediate (midField b) b2
  | 5 => .rst (midField b)
  | 6 =>
    match Reg.ofCode (midField b) with
    | some r => .lri r b2
    | none => .lmi b2
  | _ => .ret

/-- Class 01: input, output, jumps and calls (30_encoding.md R89, R91, R93). -/
def decodeClass01 (b b2 b3 : Byte) : Instr :=
  if b.getLsbD 0 then
    if b.extractLsb' 4 2 = 0 then .inp (b.extractLsb' 1 3) else .out (b.extractLsb' 1 5)
  else
    match (b.extractLsb' 1 2).toNat with
    | 0 =>
      if senseBit b then .jtc (Cond.ofCode (condField b)) (targetOf b2 b3)
      else .jfc (Cond.ofCode (condField b)) (targetOf b2 b3)
    | 1 =>
      if senseBit b then .ctc (Cond.ofCode (condField b)) (targetOf b2 b3)
      else .cfc (Cond.ofCode (condField b)) (targetOf b2 b3)
    | 2 => .jmp (targetOf b2 b3)
    | _ => .cal (targetOf b2 b3)

/-- Class 10: the ALU on a register or on M (30_encoding.md R91, R94). -/
def decodeClass10 (b : Byte) : Instr :=
  match Reg.ofCode (lowField b) with
  | some r => aluRegister (midField b) r
  | none => aluMemory (midField b)

/-- Class 11: the loads, and HLT where both fields are 111 (30_encoding.md R91, R95). -/
def decodeClass11 (b : Byte) : Instr :=
  match Reg.ofCode (midField b), Reg.ofCode (lowField b) with
  | none, none => .hltFF
  | some r, none => .lrm r
  | none, some r => .lmr r
  | some r1, some r2 => .lrr r1 r2

/-- The instruction with first byte `b`; `b2` and `b3` are its operand bytes, not looked at where
the instruction is shorter (30_encoding.md R91). -/
def decodeBytes (b b2 b3 : Byte) : Instr :=
  match (classField b).toNat with
  | 0 => decodeClass00 b b2
  | 1 => decodeClass01 b b2 b3
  | 2 => decodeClass10 b
  | _ => decodeClass11 b

/-- Why a string of bytes is no instruction. -/
inductive DecodeError where
  /-- No byte at all. -/
  | noByte
  /-- The first byte asks for more operand bytes than follow it (30_encoding.md R90). -/
  | operandMissing (opcode : Byte)
deriving DecidableEq, Repr

/-- The decoder on a list of bytes: the instruction at its head and the bytes after it. Every first
byte is a row of the table, so the only refusals are for bytes that are missing. -/
def decode (bytes : List Byte) : Except DecodeError (Instr × List Byte) :=
  match bytes with
  | [] => .error .noByte
  | b :: rest =>
    match instrLength b, rest with
    | 2, b2 :: rest2 => .ok (decodeBytes b b2 0, rest2)
    | 3, b2 :: b3 :: rest3 => .ok (decodeBytes b b2 b3, rest3)
    | 2, [] => .error (.operandMissing b)
    | 3, _ => .error (.operandMissing b)
    | _, rest => .ok (decodeBytes b 0 0, rest)

/-- The canonical bytes of an instruction, all don't-care bits 0 (30_encoding.md R92 to R97). -/
def encode (i : Instr) : List Byte :=
  match i with
  | .hlt => [0x00]
  | .hltFF => [0xFF]
  | .undefined22 => [0x22]
  | .undefined2A => [0x2A]
  | .undefined32 => [0x32]
  | .undefined3A => [0x3A]
  | .undefined38 => [0x38]
  | .undefined39 => [0x39]
  | .rlc => [0x02]
  | .rrc => [0x0A]
  | .ral => [0x12]
  | .rar => [0x1A]
  | .inr r => [pack 0b00 r.code 0b000]
  | .dcr r => [pack 0b00 r.code 0b001]
  | .rfc c => [pack 0b00 (condMid 0 c) 0b011]
  | .rtc c => [pack 0b00 (condMid 1 c) 0b011]
  | .adi v => [pack 0b00 0b000 0b100, v]
  | .aci v => [pack 0b00 0b001 0b100, v]
  | .sui v => [pack 0b00 0b010 0b100, v]
  | .sbi v => [pack 0b00 0b011 0b100, v]
  | .ndi v => [pack 0b00 0b100 0b100, v]
  | .xri v => [pack 0b00 0b101 0b100, v]
  | .ori v => [pack 0b00 0b110 0b100, v]
  | .cpi v => [pack 0b00 0b111 0b100, v]
  | .rst aaa => [pack 0b00 aaa 0b101]
  | .lmi v => [pack 0b00 0b111 0b110, v]
  | .lri r v => [pack 0b00 r.code 0b110, v]
  | .ret => [pack 0b00 0b000 0b111]
  | .inp port => [(0b0100 : BitVec 4) ++ port ++ (1 : BitVec 1)]
  | .out port => [(0b01 : BitVec 2) ++ port ++ (1 : BitVec 1)]
  | .jmp t => [pack 0b01 0b000 0b100, lowAddress t, highAddress t]
  | .cal t => [pack 0b01 0b000 0b110, lowAddress t, highAddress t]
  | .jfc c t => [pack 0b01 (condMid 0 c) 0b000, lowAddress t, highAddress t]
  | .jtc c t => [pack 0b01 (condMid 1 c) 0b000, lowAddress t, highAddress t]
  | .cfc c t => [pack 0b01 (condMid 0 c) 0b010, lowAddress t, highAddress t]
  | .ctc c t => [pack 0b01 (condMid 1 c) 0b010, lowAddress t, highAddress t]
  | .adm => [pack 0b10 0b000 0b111]
  | .adr r => [pack 0b10 0b000 r.code]
  | .acm => [pack 0b10 0b001 0b111]
  | .acr r => [pack 0b10 0b001 r.code]
  | .sum => [pack 0b10 0b010 0b111]
  | .sur r => [pack 0b10 0b010 r.code]
  | .sbm => [pack 0b10 0b011 0b111]
  | .sbr r => [pack 0b10 0b011 r.code]
  | .ndm => [pack 0b10 0b100 0b111]
  | .ndr r => [pack 0b10 0b100 r.code]
  | .xrm => [pack 0b10 0b101 0b111]
  | .xrr r => [pack 0b10 0b101 r.code]
  | .orm => [pack 0b10 0b110 0b111]
  | .orr r => [pack 0b10 0b110 r.code]
  | .cpm => [pack 0b10 0b111 0b111]
  | .cpr r => [pack 0b10 0b111 r.code]
  | .lrm r => [pack 0b11 r.code 0b111]
  | .lmr r => [pack 0b11 0b111 r.code]
  | .lrr r1 r2 => [pack 0b11 r1.code r2.code]

/-- Byte `k` of an instruction numbered as spec/opcode_table.json numbers it; every bit from
`nbits` on is 0. -/
def tableByte (nbits w k : Nat) : Byte := BitVec.ofNat 8 ((w % 2 ^ nbits) / 2 ^ (8 * k))

/-- The three bytes, lowest address first, of an instruction of the table; three is the longest
(30_encoding.md R80). -/
def tableBytes (nbits w : Nat) : List Byte :=
  [tableByte nbits w 0, tableByte nbits w 1, tableByte nbits w 2]

/-- What the decoder reads from a word of the table. -/
def decodeTableWord (nbits w : Nat) : Option Instr :=
  match decode (tableBytes nbits w) with
  | .ok (i, _) => some i
  | .error _ => none

end Sys2Proof
end

