-- ==== Sys2Proof/Config.lean ====
section
/-! DEFINITION. What is fixed for one machine, and the free values: constants without a body, so
that nothing in Lean can evaluate them (92_eei_decisions.md D10, D11). -/

namespace Sys2Proof.Config

/-- Number of addresses of the memory space (00_scope.md R6, 10_state.md R39). -/
def memorySize : Nat := 16384

/-- What a memory address with no entry holds. DESIGN CHOICE, unsafe (log 10): the spec gives RAM
no content at power-up (91_not_in_source.md N31). -/
def unlistedByte : Byte := 0

/-- Free value: the byte a read takes when nothing answers on the bus, a fresh one at each position
of the event history (20_memory.md R68, 93_implementation_defined.md U4, log 11). Safe. -/
opaque floatingByte : Nat → Byte

/-- Free value: the byte an input device drives for the input port, the accumulator shown to it and
the position in the event history, where the schedule of input bytes says nothing
(20_memory.md R59, parameter `IoIn`, D11, log 13). Safe. -/
opaque inputByte : BitVec 3 → Byte → Nat → Byte

end Sys2Proof.Config
end

