-- ==== Sys2Proof/Machine/State.lean ====
section
/-! DEFINITION. The state of an 8008 and of what it is wired to, as plain data (10_state.md R20 to
R40; 92_eei_decisions.md section 1), the reasons a step can stop, and the state after power-up. -/

namespace Sys2Proof.Machine

/-- The seven scratch-pad registers (10_state.md R20). -/
structure Regs where
  a : Byte
  b : Byte
  c : Byte
  d : Byte
  e : Byte
  h : Byte
  l : Byte
deriving DecidableEq, Repr

/-- The four flags: carry, zero, sign, parity (10_state.md R31). -/
structure Flags where
  c : Bool
  z : Bool
  s : Bool
  p : Bool
deriving DecidableEq, Repr

/-- The run state (10_state.md R37). -/
inductive RunState where
  | running | stopped
deriving DecidableEq, Repr

/-- Where the byte in the instruction register came from (10_state.md R38; 60_exceptions.md R211). -/
inductive FetchOrigin where
  /-- Forced in by power-up: HALT, 00000000 (70_reset_and_hazards.md R250). -/
  | powerUp
  /-- Fetched by a PCI cycle at this address. -/
  | memory (addr : Addr)
  /-- Taken in the interrupt cycle. -/
  | jammed
deriving DecidableEq, Repr

/-- The memory space: the bytes that are listed, addresses strictly rising, none of them equal to
what an unlisted address holds (see `Memory.wf`). -/
abbrev Memory := List Host.Cell

/-- What answers a memory cycle at an address (20_memory.md R66, R68). `absent` also stands for a
window of some device: the processor learns nothing of it but an unconstrained byte (log 12). -/
inductive MemKind where
  | ram | rom | absent
deriving DecidableEq, Repr

/-- A stretch of the memory map (parameter `MemMap`, 92_eei_decisions.md D10). -/
structure Region where
  base : Nat
  size : Nat
  kind : MemKind
deriving DecidableEq, Repr

/-- Who drives the bus for one byte of a jammed instruction (60_exceptions.md R215, R217). -/
inductive BusSource where
  /-- The memory at PC answers, as in any cycle. -/
  | memoryAtPc
  /-- The interrupting hardware supplies this byte. -/
  | supplied (b : Byte)
deriving DecidableEq, Repr

/-- What the interrupting hardware does in one interrupt cycle and the operand cycles after it:
parameters `IntSource.jam()` and `JamOperandSource` (60_exceptions.md R215, R217). -/
structure Jam where
  opcode : BusSource
  b2 : BusSource
  b3 : BusSource
deriving DecidableEq, Repr

/-- One bus cycle as the event history records it (20_memory.md R54, R64). The pins of a cycle are
`BusEvent.pins`. -/
inductive BusEvent where
  /-- PCI: the first byte of an instruction. -/
  | opcodeFetch (addr : Addr) (byte : Byte)
  /-- PCI with T1I in place of T1: the interrupt cycle (60_exceptions.md R215). -/
  | interruptFetch (addr : Addr) (byte : Byte)
  /-- PCR: `<B2>` or `<B3>`. -/
  | operandFetch (addr : Addr) (byte : Byte)
  /-- PCR: the memory operand M. -/
  | memRead (addr : Addr) (byte : Byte)
  /-- PCW: the memory operand M. -/
  | memWrite (addr : Addr) (byte : Byte)
  /-- PCC of INP: the port, the accumulator shown at T1, the byte taken at T3, the flags driven out
  at T4 (44_input_output.md R191). -/
  | input (port : BitVec 3) (acc : Byte) (data : Byte) (flags : Flags)
  /-- PCC of OUT: the port and the accumulator (44_input_output.md R192). -/
  | output (port : BitVec 5) (acc : Byte)
deriving DecidableEq, Repr

/-- The state. The program counter is `stack` at `sp` (10_state.md R27). -/
structure State where
  /-- Scratch-pad registers (R20). -/
  regs : Regs
  /-- Flags (R31). -/
  flags : Flags
  /-- Address stack (R25). -/
  stack : Vector Addr 8
  /-- Address-stack pointer (R26). -/
  sp : StackPtr
  /-- Run state (R37). -/
  run : RunState
  /-- Instruction register (R36, R40). -/
  ir : Byte
  /-- The model's own: where the byte in `ir` came from (60_exceptions.md R211, log 22). -/
  irOrigin : FetchOrigin
  /-- Power-up flip-flop, set at power-up and reset by the first interrupt (R38). -/
  powerUpFF : Bool
  /-- Contents of RAM and ROM (R39). -/
  mem : Memory
  /-- Parameter `MemMap` (D10). -/
  memMap : List Region
  /-- The model's own: the bus cycles so far, newest first (D8, log 14). -/
  events : List BusEvent
  /-- Parameters `IntSource` and `JamOperandSource`: the environment's answer at each coming
  instruction boundary, `none` for no request; no request after the end (D9, log 7). -/
  intSource : List (Option Jam)
  /-- Parameter `IoIn`: the bytes the coming INP cycles take; free after the end (D11, log 13). -/
  inputs : List Byte
deriving DecidableEq, Repr

/-- The faults of the model. -/
inductive Fault where
  /-- A first byte 22, 2A, 32, 38, 39 or 3A was executed; raised by the meanings of the six
  UNDEFINED rows and by nothing else (30_encoding.md R96; 60_exceptions.md R211). Safe: the model
  gives these bytes no behaviour (D1). -/
  | undefinedOpcode (opcode : Byte) (origin : FetchOrigin)
deriving DecidableEq, Repr

/-- The refusals of the model. -/
inductive Refusal where
  /-- Raised by an arm of `exec` whose instruction has no meaning yet. Safe. -/
  | notModelled (mnemonic : String)
deriving DecidableEq, Repr

/-- What a step or a meaning answers. -/
abbrev Result := Host.Outcome State Fault Refusal

/-- The memory map of the reference environment: all RAM (92_eei_decisions.md D17, log 9). -/
def referenceMap : List Region := [⟨0, Config.memorySize, .ram⟩]

/-- The state at the end of power-up clearing (10_state.md R40; 70_reset_and_hazards.md R251), for
any value of the four flags (`RESET_FLAGS`, D5) and of the pointer, which the spec leaves open. -/
def State.powerUp (f : Flags) (sp : StackPtr) : State where
  regs := ⟨0, 0, 0, 0, 0, 0, 0⟩
  flags := f
  stack := Vector.replicate 8 0
  sp := sp
  run := .stopped
  ir := 0x00
  irOrigin := .powerUp
  powerUpFF := true
  mem := []
  memMap := referenceMap
  events := []
  intSource := []
  inputs := []

/-- The machine right after reset, that is after power-up. All flags 0 and `sp` = 0 are DESIGN
CHOICES (log 16, 17); the memory map is that of the reference environment (log 9). -/
def State.reset : State := State.powerUp ⟨false, false, false, false⟩ 0

end Sys2Proof.Machine
end

