-- ==== Sys2Proof/Machine/Operands.lean ====
section
/-! DEFINITION. Where operands come from and go to: registers by code, the address HL, the flag a
condition names, the program counter (10_state.md R20 to R32). -/

namespace Sys2Proof.Machine

/-- The content of a register (00_scope.md R11, `x[i]`). -/
def Regs.get (g : Regs) (r : Reg) : Byte :=
  match r with
  | .a => g.a
  | .b => g.b
  | .c => g.c
  | .d => g.d
  | .e => g.e
  | .h => g.h
  | .l => g.l

/-- The registers with one of them replaced (00_scope.md R11, `x[i] <- v`). -/
def Regs.set (g : Regs) (r : Reg) (v : Byte) : Regs :=
  match r with
  | .a => { g with a := v }
  | .b => { g with b := v }
  | .c => { g with c := v }
  | .d => { g with d := v }
  | .e => { g with e := v }
  | .h => { g with h := v }
  | .l => { g with l := v }

/-- Read of a register. -/
def State.readReg (s : State) (r : Reg) : Byte := s.regs.get r

/-- Write of a register. -/
def State.writeReg (s : State) (r : Reg) (v : Byte) : State := { s with regs := s.regs.set r v }

/-- The accumulator (10_state.md R22). -/
def State.acc (s : State) : Byte := s.readReg .a

/-- The address of the memory operand M, H[5:0] ++ L: bits 7 and 6 of H take no part
(10_state.md R23, R24). -/
def State.hl (s : State) : Addr := (s.readReg .h).extractLsb' 0 6 ++ s.readReg .l

/-- The flag a condition names (10_state.md R32). -/
def Flags.cond (f : Flags) (c : Cond) : Bool :=
  match c with
  | .carry => f.c
  | .zero => f.z
  | .sign => f.s
  | .parity => f.p

/-- The address-stack register a pointer names (10_state.md R25). -/
def stackGet (stk : Vector Addr 8) (k : StackPtr) : Addr := stk[k.toNat]'k.isLt

/-- The address stack with one register replaced. -/
def stackSet (stk : Vector Addr 8) (k : StackPtr) (v : Addr) : Vector Addr 8 :=
  stk.set k.toNat v k.isLt

/-- The program counter is the register that the pointer points at (10_state.md R27). -/
def State.pc (s : State) : Addr := stackGet s.stack s.sp

/-- Write of the program counter (10_state.md R27). -/
def State.setPc (s : State) (v : Addr) : State := { s with stack := stackSet s.stack s.sp v }

end Sys2Proof.Machine
end

