-- ==== Sys2Proof/Machine/Flags.lean ====
section
/-! DEFINITION. The flag computations and the eight ALU functions (10_state.md R31, R33;
41_accumulator_alu.md R121 to R128). Sums and differences are taken on integers and narrowed at the
end (00_scope.md R10). -/

namespace Sys2Proof.Machine

/-- The number of 1 bits of a byte (10_state.md R31). -/
def onesCount (v : Byte) : Nat :=
  v[0].toNat + v[1].toNat + v[2].toNat + v[3].toNat + v[4].toNat + v[5].toNat + v[6].toNat
    + v[7].toNat

/-- `parity_even(v)` (00_scope.md R11; 10_state.md R31). -/
def parityEven (v : Byte) : Bool := onesCount v % 2 == 0

/-- `SetZSP(v)`: zero, sign and parity from a result, the carry not touched (10_state.md R31). -/
def Flags.setZSP (f : Flags) (v : Byte) : Flags :=
  { f with z := v == 0, s := v[7], p := parityEven v }

/-- A flag as the number it counts for in a sum (10_state.md R31). -/
def carryIn (f : Flags) : Nat := f.c.toNat

/-- What an ALU function gives: the 8-bit result and the new carry. -/
structure AluOut where
  value : Byte
  carry : Bool
deriving DecidableEq, Repr

/-- AD and AC: the sum with a carry in, the carry being the ninth bit of the sum; c is cleared when
there is none (R121, R122; D4, log 3). -/
def aluAdd (x v : Byte) (cin : Nat) : AluOut :=
  let t := x.toNat + v.toNat + cin
  ⟨BitVec.ofNat 8 t, decide (256 ≤ t)⟩

/-- SU, SB and CP: the difference with a borrow in, the carry being the borrow (R123, R124, R128;
D4, log 3). -/
def aluSub (x v : Byte) (bin : Nat) : AluOut :=
  let d : Int := (x.toNat : Int) - v.toNat - bin
  ⟨BitVec.ofInt 8 d, decide (d < 0)⟩

/-- ND: AND, the carry cleared (R125). -/
def aluAnd (x v : Byte) : AluOut := ⟨x &&& v, false⟩

/-- XR: exclusive OR, the carry cleared (R126). -/
def aluXor (x v : Byte) : AluOut := ⟨x ^^^ v, false⟩

/-- OR: inclusive OR, the carry cleared (R127). -/
def aluOr (x v : Byte) : AluOut := ⟨x ||| v, false⟩

/-- All four flags from an ALU result (10_state.md R33). -/
def AluOut.flags (o : AluOut) : Flags := ⟨o.carry, o.value == 0, o.value[7], parityEven o.value⟩

/-- Write of all four flags. -/
def State.setFlags (s : State) (f : Flags) : State := { s with flags := f }

/-- An ALU result goes to A and to all four flags (41_accumulator_alu.md R120). -/
def State.accumulate (s : State) (o : AluOut) : State := (s.writeReg .a o.value).setFlags o.flags

/-- A compare writes the flags of the difference and no register (R128). -/
def State.compareWith (s : State) (o : AluOut) : State := s.setFlags o.flags

/-- INr and DCr: a register and the flags z, s, p (40_index_register.md R116, R117). -/
def State.countTo (s : State) (r : Reg) (v : Byte) : State :=
  (s.writeReg r v).setFlags (s.flags.setZSP v)

/-- A rotate: A and the carry alone (42_rotate.md R160). -/
def State.rotateTo (s : State) (v : Byte) (c : Bool) : State :=
  (s.writeReg .a v).setFlags { s.flags with c := c }

end Sys2Proof.Machine
end

