-- ==== Sys2Proof/Machine/Ops.lean ====
section
/-! DEFINITION. The named operations over memory, the address stack, the bus and the run state:
`MemRead`, `MemWrite`, `IoIn`, `IoOut`, `Push`, `Pop`, `Fetch`, `FetchInterrupt` of the spec
(10_state.md R28, R29; 20_memory.md R55 to R60; 60_exceptions.md R215). -/

namespace Sys2Proof.Machine

/-- What the listed memory holds at an address. -/
def Memory.read (m : Memory) (a : Nat) : Byte :=
  match m with
  | [] => Config.unlistedByte
  | (k, v) :: rest => if k = a then v else Memory.read rest a

/-- The memory with one byte replaced, in canonical form again. -/
def Memory.write (m : Memory) (a : Nat) (v : Byte) : Memory :=
  match m with
  | [] => if v = Config.unlistedByte then [] else [(a, v)]
  | (k, w) :: rest =>
    if a < k then if v = Config.unlistedByte then (k, w) :: rest else (a, v) :: (k, w) :: rest
    else if a = k then if v = Config.unlistedByte then rest else (a, v) :: rest
    else (k, w) :: Memory.write rest a v

/-- The canonical form from an address on: addresses strictly rising and inside the memory space,
no entry that an unlisted address would read as. -/
def Memory.wfFrom (lo : Nat) (m : Memory) : Bool :=
  match m with
  | [] => true
  | (k, v) :: rest =>
    decide (lo ≤ k) && decide (k < Config.memorySize) && decide (v ≠ Config.unlistedByte)
      && Memory.wfFrom (k + 1) rest

/-- The canonical form of memory. -/
def Memory.wf (m : Memory) : Bool := Memory.wfFrom 0 m

/-- What answers at an address: the first region that holds it, nothing where none does
(parameter `MemMap`, 92_eei_decisions.md D10). -/
def kindIn (map : List Region) (a : Nat) : MemKind :=
  match map with
  | [] => .absent
  | r :: rest => if r.base ≤ a ∧ a < r.base + r.size then r.kind else kindIn rest a

/-- What answers at an address of this system. -/
def State.kindAt (s : State) (a : Addr) : MemKind := kindIn s.memMap a.toNat

/-- The byte stored at an address, whatever answers there. -/
def State.memByte (s : State) (a : Addr) : Byte := s.mem.read a.toNat

/-- The position in the event history, which free values are applied to (D10, D11). -/
def State.position (s : State) : Nat := s.events.length

/-- The byte the system returns for a read at an address: RAM and ROM give what they hold, an
unanswered read a free byte, fresh at each cycle (20_memory.md R56, R68; log 11). -/
def State.busByte (s : State) (a : Addr) : Byte :=
  match s.kindAt a with
  | .ram => s.memByte a
  | .rom => s.memByte a
  | .absent => Config.floatingByte s.position

/-- One more bus cycle in the event history (20_memory.md R64, D8). -/
def State.record (s : State) (e : BusEvent) : State := { s with events := e :: s.events }

/-- The memory after a write cycle: RAM takes the byte, ROM and nothing drop it (20_memory.md R57,
R68; D10, log 12). -/
def storeInto (kind : MemKind) (m : Memory) (a : Nat) (v : Byte) : Memory :=
  match kind with
  | .ram => m.write a v
  | .rom => m
  | .absent => m

/-- A byte stored at an address, as the memory map lets it. -/
def State.storeByte (s : State) (a : Addr) (v : Byte) : State :=
  { s with mem := storeInto (s.kindAt a) s.mem a.toNat v }

/-- `MemRead(HL, 1)`, a PCR cycle (20_memory.md R56). -/
def State.readM (s : State) : Byte × State :=
  (s.busByte s.hl, s.record (.memRead s.hl (s.busByte s.hl)))

/-- `MemWrite(HL, 1, v)`, a PCW cycle (20_memory.md R57). -/
def State.writeM (s : State) (v : Byte) : State := (s.storeByte s.hl v).record (.memWrite s.hl v)

/-- The byte an input device drives: the next one of the schedule, a free one where the schedule has
ended (20_memory.md R59, parameter `IoIn`, D11, log 13). -/
def State.inputData (s : State) (port : BitVec 3) : Byte :=
  match s.inputs with
  | v :: _ => v
  | [] => Config.inputByte port s.acc s.position

/-- `IoIn(port, A)`, the PCC cycle of INP, with the flags driven out at T4 (20_memory.md R59;
44_input_output.md R191). -/
def State.ioIn (s : State) (port : BitVec 3) : Byte × State :=
  (s.inputData port,
    { s with
      inputs := s.inputs.tail
      events := .input port s.acc (s.inputData port) s.flags :: s.events })

/-- `IoOut(port, A)`, the PCC cycle of OUT (20_memory.md R60). -/
def State.ioOut (s : State) (port : BitVec 5) : State := s.record (.output port s.acc)

/-- `Push(t)`: the pointer moves up, mod 8, and the register it then points at takes the target; the
register it left keeps the return address (10_state.md R28). -/
def State.push (s : State) (t : Addr) : State :=
  { s with sp := s.sp + 1, stack := stackSet s.stack (s.sp + 1) t }

/-- `Pop()`: the pointer moves down, mod 8; nothing is copied (10_state.md R29; D3, log 2). It is
also the way back from an interrupt routine entered by a jammed RST (60_exceptions.md R224). -/
def State.pop (s : State) : State := { s with sp := s.sp - 1 }

/-- STOPPED is entered (45_machine.md R200). -/
def State.halt (s : State) : State := { s with run := .stopped }

/-- PC moves on by one byte, mod 2^14 (10_state.md R30; D2, log 1). -/
def State.advancePc (s : State) : State := s.setPc (s.pc + 1)

/-- The byte the bus brings in a fetch cycle at PC (60_exceptions.md R215, R217). -/
def State.sourceByte (s : State) (src : BusSource) : Byte :=
  match src with
  | .memoryAtPc => s.busByte s.pc
  | .supplied b => b

/-- `Fetch()` of a first byte, a PCI cycle: into the instruction register, PC on by one
(20_memory.md R55; 10_state.md R30, R36). -/
def State.fetchOpcode (s : State) : Byte × State :=
  (s.busByte s.pc,
    State.advancePc
      { s with
        ir := s.busByte s.pc
        irOrigin := .memory s.pc
        events := .opcodeFetch s.pc (s.busByte s.pc) :: s.events })

/-- `Fetch()` of `<B2>` or `<B3>`, a PCR cycle at PC; after a jammed first byte the interrupting
hardware may drive the bus (20_memory.md R55; 60_exceptions.md R217). -/
def State.fetchOperand (s : State) (src : BusSource) : Byte × State :=
  (s.sourceByte src, (s.record (.operandFetch s.pc (s.sourceByte src))).advancePc)

/-- `FetchInterrupt()`, the recognition of an interrupt: RUNNING, the first byte from the
interrupting hardware, the power-up flip-flop reset, PC not advanced, nothing else
(60_exceptions.md R214, R215, R218; 10_state.md R38). -/
def State.fetchInterrupt (s : State) (j : Jam) : Byte × State :=
  (s.sourceByte j.opcode,
    { s with
      run := .running
      ir := s.sourceByte j.opcode
      irOrigin := .jammed
      powerUpFF := false
      events := .interruptFetch s.pc (s.sourceByte j.opcode) :: s.events })

/-- The operand bytes that a first byte asks for, and its instruction (30_encoding.md R90, R91;
43_control_transfer.md R170). -/
def State.fetchRest (s : State) (b : Byte) (src2 src3 : BusSource) : Instr × State :=
  match instrLength b with
  | 3 =>
    let (b2, s2) := s.fetchOperand src2
    let (b3, s3) := s2.fetchOperand src3
    (decodeBytes b b2 b3, s3)
  | 2 =>
    let (b2, s2) := s.fetchOperand src2
    (decodeBytes b b2 0, s2)
  | _ => (decodeBytes b 0 0, s)

/-- An instruction fetched from memory at PC (60_exceptions.md R214). -/
def State.fetchInstr (s : State) : Instr × State :=
  let (b, s1) := s.fetchOpcode
  s1.fetchRest b .memoryAtPc .memoryAtPc

/-- An instruction brought in by an interrupt cycle (60_exceptions.md R216, R217). -/
def State.fetchJammed (s : State) (j : Jam) : Instr × State :=
  let (b, s1) := s.fetchInterrupt j
  s1.fetchRest b j.b2 j.b3

/-- What the environment answers at this instruction boundary; the answer is then used up
(60_exceptions.md R213, R214; log 7). -/
def State.interruptAnswer (s : State) : Option Jam × State :=
  match s.intSource with
  | answer :: rest => (answer, { s with intSource := rest })
  | [] => (none, s)

/-- What runs at this boundary: an instruction and the state after its fetch, or nothing while
STOPPED (`Step()` of 60_exceptions.md R214). -/
def State.boundary (s : State) : Option Instr × State :=
  match s.interruptAnswer with
  | (some j, s1) => let (i, s2) := s1.fetchJammed j; (some i, s2)
  | (none, s1) =>
    match s1.run with
    | .stopped => (none, s1)
    | .running => let (i, s2) := s1.fetchInstr; (some i, s2)

/-- The interrupting hardware supplies all the bytes of an instruction at the next boundary. -/
def jamBytes (b b2 b3 : Byte) : Jam := ⟨.supplied b, .supplied b2, .supplied b3⟩

/-- The next fetch is an interrupt cycle that brings in these bytes (log 23). -/
def State.jamNext (s : State) (b b2 b3 : Byte) : State :=
  { s with intSource := some (jamBytes b b2 b3) :: s.intSource.tail }

end Sys2Proof.Machine
end

