-- ==== Sys2Proof/Machine/Accumulator.lean ====
section
/-! DEFINITION. The accumulator group: eight functions, each on a register, on M and on an immediate
byte (41_accumulator_alu.md R120 to R153). -/

namespace Sys2Proof.Machine

/-- ADr, add register (R130). -/
def execAdr (r : Reg) (s : State) : Result := .next (s.accumulate (aluAdd s.acc (s.readReg r) 0))

/-- ADM, add memory (R131). -/
def execAdm (s : State) : Result :=
  let (v, s1) := s.readM
  .next (s1.accumulate (aluAdd s1.acc v 0))

/-- ADI, add immediate (R132). -/
def execAdi (v : Byte) (s : State) : Result := .next (s.accumulate (aluAdd s.acc v 0))

/-- ACr, add with carry register (R133). -/
def execAcr (r : Reg) (s : State) : Result :=
  .next (s.accumulate (aluAdd s.acc (s.readReg r) (carryIn s.flags)))

/-- ACM, add with carry memory (R134). -/
def execAcm (s : State) : Result :=
  let (v, s1) := s.readM
  .next (s1.accumulate (aluAdd s1.acc v (carryIn s1.flags)))

/-- ACI, add with carry immediate (R135). -/
def execAci (v : Byte) (s : State) : Result :=
  .next (s.accumulate (aluAdd s.acc v (carryIn s.flags)))

/-- SUr, subtract register (R136). -/
def execSur (r : Reg) (s : State) : Result := .next (s.accumulate (aluSub s.acc (s.readReg r) 0))

/-- SUM, subtract memory (R137). -/
def execSum (s : State) : Result :=
  let (v, s1) := s.readM
  .next (s1.accumulate (aluSub s1.acc v 0))

/-- SUI, subtract immediate (R138). -/
def execSui (v : Byte) (s : State) : Result := .next (s.accumulate (aluSub s.acc v 0))

/-- SBr, subtract with borrow register (R139). -/
def execSbr (r : Reg) (s : State) : Result :=
  .next (s.accumulate (aluSub s.acc (s.readReg r) (carryIn s.flags)))

/-- SBM, subtract with borrow memory (R140). -/
def execSbm (s : State) : Result :=
  let (v, s1) := s.readM
  .next (s1.accumulate (aluSub s1.acc v (carryIn s1.flags)))

/-- SBI, subtract with borrow immediate (R141). -/
def execSbi (v : Byte) (s : State) : Result :=
  .next (s.accumulate (aluSub s.acc v (carryIn s.flags)))

/-- NDr, AND register (R142). -/
def execNdr (r : Reg) (s : State) : Result := .next (s.accumulate (aluAnd s.acc (s.readReg r)))

/-- NDM, AND memory (R143). -/
def execNdm (s : State) : Result :=
  let (v, s1) := s.readM
  .next (s1.accumulate (aluAnd s1.acc v))

/-- NDI, AND immediate (R144). -/
def execNdi (v : Byte) (s : State) : Result := .next (s.accumulate (aluAnd s.acc v))

/-- XRr, exclusive OR register (R145). -/
def execXrr (r : Reg) (s : State) : Result := .next (s.accumulate (aluXor s.acc (s.readReg r)))

/-- XRM, exclusive OR memory (R146). -/
def execXrm (s : State) : Result :=
  let (v, s1) := s.readM
  .next (s1.accumulate (aluXor s1.acc v))

/-- XRI, exclusive OR immediate (R147). -/
def execXri (v : Byte) (s : State) : Result := .next (s.accumulate (aluXor s.acc v))

/-- ORr, inclusive OR register (R148). -/
def execOrr (r : Reg) (s : State) : Result := .next (s.accumulate (aluOr s.acc (s.readReg r)))

/-- ORM, inclusive OR memory (R149). -/
def execOrm (s : State) : Result :=
  let (v, s1) := s.readM
  .next (s1.accumulate (aluOr s1.acc v))

/-- ORI, inclusive OR immediate (R150). -/
def execOri (v : Byte) (s : State) : Result := .next (s.accumulate (aluOr s.acc v))

/-- CPr, compare register (R151). -/
def execCpr (r : Reg) (s : State) : Result := .next (s.compareWith (aluSub s.acc (s.readReg r) 0))

/-- CPM, compare memory (R152). -/
def execCpm (s : State) : Result :=
  let (v, s1) := s.readM
  .next (s1.compareWith (aluSub s1.acc v 0))

/-- CPI, compare immediate (R153). -/
def execCpi (v : Byte) (s : State) : Result := .next (s.compareWith (aluSub s.acc v 0))

end Sys2Proof.Machine
end

