-- ==== Sys2Proof/Machine/Control.lean ====
section
/-! DEFINITION. Program counter and stack control (43_control_transfer.md R170 to R181). When a
meaning runs, PC already addresses the instruction after it (10_state.md R30). No flag is written
(D6, log 4). -/

namespace Sys2Proof.Machine

/-- PC takes the target if the condition holds (R171 to R173). -/
def State.jumpIf (s : State) (take : Bool) (t : Addr) : State := if take then s.setPc t else s

/-- `Push` of the target if the condition holds (R174 to R176). -/
def State.callIf (s : State) (take : Bool) (t : Addr) : State := if take then s.push t else s

/-- `Pop` if the condition holds (R177 to R179). -/
def State.returnIf (s : State) (take : Bool) : State := if take then s.pop else s

/-- The target of RST, 000000 ++ 00 ++ AAA ++ 000 (30_encoding.md R88). -/
def restartTarget (aaa : BitVec 3) : Addr := (0 : BitVec 8) ++ aaa ++ (0 : BitVec 3)

/-- JMP (R171). -/
def execJmp (t : Addr) (s : State) : Result := .next (s.jumpIf true t)

/-- JFc (R172). -/
def execJfc (c : Cond) (t : Addr) (s : State) : Result := .next (s.jumpIf (!s.flags.cond c) t)

/-- JTc (R173). -/
def execJtc (c : Cond) (t : Addr) (s : State) : Result := .next (s.jumpIf (s.flags.cond c) t)

/-- CAL (R174). -/
def execCal (t : Addr) (s : State) : Result := .next (s.callIf true t)

/-- CFc (R175). -/
def execCfc (c : Cond) (t : Addr) (s : State) : Result := .next (s.callIf (!s.flags.cond c) t)

/-- CTc (R176). -/
def execCtc (c : Cond) (t : Addr) (s : State) : Result := .next (s.callIf (s.flags.cond c) t)

/-- RET (R177). -/
def execRet (s : State) : Result := .next (s.returnIf true)

/-- RFc (R178). -/
def execRfc (c : Cond) (s : State) : Result := .next (s.returnIf (!s.flags.cond c))

/-- RTc (R179). -/
def execRtc (c : Cond) (s : State) : Result := .next (s.returnIf (s.flags.cond c))

/-- RST (R180). Jammed in an interrupt cycle it saves the un-advanced PC (60_exceptions.md R219). -/
def execRst (aaa : BitVec 3) (s : State) : Result := .next (s.push (restartTarget aaa))

end Sys2Proof.Machine
end

