-- ==== Sys2Proof/Machine/Halt.lean ====
section
/-! DEFINITION. HLT (45_machine.md R200) and the six first bytes without a meaning
(30_encoding.md R96; 60_exceptions.md R211). -/

namespace Sys2Proof.Machine

/-- HLT, codes 00 and 01 (R200). PC was advanced by the fetch. -/
def execHlt (s : State) : Result := .next s.halt

/-- HLT, code FF (R200; 30_encoding.md R98). -/
def execHltFF (s : State) : Result := .next s.halt

/-- `raise UndefinedOpcode(b)` with where `b` was fetched from (60_exceptions.md R211; log 18). -/
def undefinedOpcode (b : Byte) (s : State) : Result := .fault (.undefinedOpcode b s.irOrigin)

/-- The first byte 22 (R96). -/
def execUndefined22 (s : State) : Result := undefinedOpcode 0x22 s

/-- The first byte 2A (R96). -/
def execUndefined2A (s : State) : Result := undefinedOpcode 0x2A s

/-- The first byte 32 (R96). -/
def execUndefined32 (s : State) : Result := undefinedOpcode 0x32 s

/-- The first byte 3A (R96). -/
def execUndefined3A (s : State) : Result := undefinedOpcode 0x3A s

/-- The first byte 38 (R96). -/
def execUndefined38 (s : State) : Result := undefinedOpcode 0x38 s

/-- The first byte 39 (R96). -/
def execUndefined39 (s : State) : Result := undefinedOpcode 0x39 s

end Sys2Proof.Machine
end

