-- ==== Sys2Proof/Machine/IndexRegister.lean ====
section
/-! DEFINITION. Index register instructions: loads, increment, decrement (40_index_register.md R110
to R117). -/

namespace Sys2Proof.Machine

/-- Lr1r2 (R111). -/
def execLrr (r1 r2 : Reg) (s : State) : Result := .next (s.writeReg r1 (s.readReg r2))

/-- LrM (R112). The address is formed from the old H and L. -/
def execLrm (r : Reg) (s : State) : Result :=
  let (v, s1) := s.readM
  .next (s1.writeReg r v)

/-- LMr (R113). -/
def execLmr (r : Reg) (s : State) : Result := .next (s.writeM (s.readReg r))

/-- LrI (R114). -/
def execLri (r : Reg) (v : Byte) (s : State) : Result := .next (s.writeReg r v)

/-- LMI (R115). -/
def execLmi (v : Byte) (s : State) : Result := .next (s.writeM v)

/-- INr (R116): the register plus one, mod 256; z, s, p from the result, c unchanged. -/
def execInr (r : Reg) (s : State) : Result := .next (s.countTo r (s.readReg r + 1))

/-- DCr (R117): the register minus one, mod 256; z, s, p from the result, c unchanged. -/
def execDcr (r : Reg) (s : State) : Result := .next (s.countTo r (s.readReg r - 1))

end Sys2Proof.Machine
end

