-- ==== Sys2Proof/Machine/InputOutput.lean ====
section
/-! DEFINITION. Input and output (44_input_output.md R190 to R192). No flag is written (D6, log 4). -/

namespace Sys2Proof.Machine

/-- INP (R191): A takes what the device drives; the device sees the old A. -/
def execInp (port : BitVec 3) (s : State) : Result :=
  let (v, s1) := s.ioIn port
  .next (s1.writeReg .a v)

/-- OUT (R192): A is shown to the device. -/
def execOut (port : BitVec 5) (s : State) : Result := .next (s.ioOut port)

end Sys2Proof.Machine
end

