-- ==== Sys2Proof/Machine/Rotate.lean ====
section
/-! DEFINITION. The four rotates (42_rotate.md R160 to R164): A by one bit, and the carry. -/

namespace Sys2Proof.Machine

/-- A[6:0] ++ t (R161, R163). -/
def shiftInLow (v : Byte) (t : Bool) : Byte := v.extractLsb' 0 7 ++ BitVec.ofBool t

/-- t ++ A[7:1] (R162, R164). -/
def shiftInHigh (v : Byte) (t : Bool) : Byte := BitVec.ofBool t ++ v.extractLsb' 1 7

/-- RLC (R161). -/
def execRlc (s : State) : Result := .next (s.rotateTo (shiftInLow s.acc s.acc[7]) s.acc[7])

/-- RRC (R162; 90_conflicts.md C1). -/
def execRrc (s : State) : Result := .next (s.rotateTo (shiftInHigh s.acc s.acc[0]) s.acc[0])

/-- RAL (R163). -/
def execRal (s : State) : Result := .next (s.rotateTo (shiftInLow s.acc s.flags.c) s.acc[7])

/-- RAR (R164). -/
def execRar (s : State) : Result := .next (s.rotateTo (shiftInHigh s.acc s.flags.c) s.acc[0])

end Sys2Proof.Machine
end

