-- ==== Sys2Proof/Machine/Dispatch.lean ====
section
/-! DEFINITION. One arm per instruction, in the order of spec/opcode_table.json. -/

namespace Sys2Proof.Machine

def exec (i : Instr) (s : State) : Host.Outcome State Fault Refusal :=
  match i with
  | .hlt => Sys2Proof.Machine.execHlt s
  | .hltFF => Sys2Proof.Machine.execHltFF s
  | .undefined22 => Sys2Proof.Machine.execUndefined22 s
  | .undefined2A => Sys2Proof.Machine.execUndefined2A s
  | .undefined32 => Sys2Proof.Machine.execUndefined32 s
  | .undefined3A => Sys2Proof.Machine.execUndefined3A s
  | .undefined38 => Sys2Proof.Machine.execUndefined38 s
  | .undefined39 => Sys2Proof.Machine.execUndefined39 s
  | .rlc => Sys2Proof.Machine.execRlc s
  | .rrc => Sys2Proof.Machine.execRrc s
  | .ral => Sys2Proof.Machine.execRal s
  | .rar => Sys2Proof.Machine.execRar s
  | .inr r => Sys2Proof.Machine.execInr r s
  | .dcr r => Sys2Proof.Machine.execDcr r s
  | .rfc c => Sys2Proof.Machine.execRfc c s
  | .rtc c => Sys2Proof.Machine.execRtc c s
  | .adi v => Sys2Proof.Machine.execAdi v s
  | .aci v => Sys2Proof.Machine.execAci v s
  | .sui v => Sys2Proof.Machine.execSui v s
  | .sbi v => Sys2Proof.Machine.execSbi v s
  | .ndi v => Sys2Proof.Machine.execNdi v s
  | .xri v => Sys2Proof.Machine.execXri v s
  | .ori v => Sys2Proof.Machine.execOri v s
  | .cpi v => Sys2Proof.Machine.execCpi v s
  | .rst aaa => Sys2Proof.Machine.execRst aaa s
  | .lmi v => Sys2Proof.Machine.execLmi v s
  | .lri r v => Sys2Proof.Machine.execLri r v s
  | .ret => Sys2Proof.Machine.execRet s
  | .inp port => Sys2Proof.Machine.execInp port s
  | .out port => Sys2Proof.Machine.execOut port s
  | .jmp target => Sys2Proof.Machine.execJmp target s
  | .cal target => Sys2Proof.Machine.execCal target s
  | .jfc c target => Sys2Proof.Machine.execJfc c target s
  | .jtc c target => Sys2Proof.Machine.execJtc c target s
  | .cfc c target => Sys2Proof.Machine.execCfc c target s
  | .ctc c target => Sys2Proof.Machine.execCtc c target s
  | .adm => Sys2Proof.Machine.execAdm s
  | .adr r => Sys2Proof.Machine.execAdr r s
  | .acm => Sys2Proof.Machine.execAcm s
  | .acr r => Sys2Proof.Machine.execAcr r s
  | .sum => Sys2Proof.Machine.execSum s
  | .sur r => Sys2Proof.Machine.execSur r s
  | .sbm => Sys2Proof.Machine.execSbm s
  | .sbr r => Sys2Proof.Machine.execSbr r s
  | .ndm => Sys2Proof.Machine.execNdm s
  | .ndr r => Sys2Proof.Machine.execNdr r s
  | .xrm => Sys2Proof.Machine.execXrm s
  | .xrr r => Sys2Proof.Machine.execXrr r s
  | .orm => Sys2Proof.Machine.execOrm s
  | .orr r => Sys2Proof.Machine.execOrr r s
  | .cpm => Sys2Proof.Machine.execCpm s
  | .cpr r => Sys2Proof.Machine.execCpr r s
  | .lrm r => Sys2Proof.Machine.execLrm r s
  | .lmr r => Sys2Proof.Machine.execLmr r s
  | .lrr r1 r2 => Sys2Proof.Machine.execLrr r1 r2 s

end Sys2Proof.Machine
end

