-- ==== Sys2Proof/Machine/Step.lean ====
section
/-! DEFINITION. One step of the machine: an instruction boundary and what runs there
(60_exceptions.md R214, 92_eei_decisions.md D8). -/

namespace Sys2Proof.Machine

/-- `Step()`: the interrupt cycle and its instruction where the environment requests one; nothing
while STOPPED; else the instruction at PC (60_exceptions.md R214). -/
def step (s : State) : Host.Outcome State Fault Refusal :=
  match s.boundary with
  | (some i, s1) => exec i s1
  | (none, s1) => .next s1

/-- The instruction of a table word is what the next step fetches: the interrupting hardware supplies
it, byte for byte. It is the way the first instruction after power-up comes in
(70_reset_and_hazards.md R252; log 23). -/
def State.withFetchWord (s : State) (nbits w : Nat) : State :=
  s.jamNext (tableByte nbits w 0) (tableByte nbits w 1) (tableByte nbits w 2)

end Sys2Proof.Machine
end

