-- ==== Sys2Proof/Machine/Bus.lean ====
section
/-! DEFINITION. The pins of a bus cycle: what the 8008 sends and takes in each state of it
(20_memory.md R50 to R54, R58), read off the events of the history. -/

namespace Sys2Proof.Machine

/-- The four cycle types (20_memory.md R53). -/
inductive CycleType where
  | pci | pcr | pcc | pcw
deriving DecidableEq, Repr

/-- The cycle-control bits D7 ++ D6 sent at T2 (20_memory.md R53). -/
def CycleType.code (t : CycleType) : BitVec 2 :=
  match t with
  | .pci => 0b00
  | .pcr => 0b10
  | .pcc => 0b01
  | .pcw => 0b11

/-- The cycle type that external hardware reads off the byte sent at T2 (20_memory.md R53). -/
def cycleOfT2 (t2 : Byte) : CycleType :=
  match (t2.extractLsb' 6 2).toNat with
  | 0 => .pci
  | 1 => .pcc
  | 2 => .pcr
  | _ => .pcw

/-- What happens on the bus at T3 (20_memory.md R54). -/
inductive Transfer where
  /-- A byte comes in. -/
  | taken (b : Byte)
  /-- A byte goes out. -/
  | driven (b : Byte)
  /-- Nothing is transferred. -/
  | idle
deriving DecidableEq, Repr

/-- One bus cycle as external hardware sees it (20_memory.md R51, R54). -/
structure BusPins where
  /-- T1I stands in place of T1. -/
  interrupt : Bool
  cycle : CycleType
  t1 : Byte
  t2 : Byte
  t3 : Transfer
  /-- Bits D3 to D0 at T4 of INP's PCC cycle; D7 to D4 are not specified (U7, log 25). -/
  t4 : Option (BitVec 4)
deriving DecidableEq, Repr

/-- The low address byte, sent at T1. -/
def addressT1 (a : Addr) : Byte := a.extractLsb' 0 8

/-- The cycle-control bits on D7 and D6 and the high address bits below them, sent at T2. -/
def addressT2 (t : CycleType) (a : Addr) : Byte := t.code ++ a.extractLsb' 8 6

/-- The flags at T4 of INP: S on D0, Z on D1, P on D2, C on D3 (44_input_output.md R191). -/
def flagNibble (f : Flags) : BitVec 4 :=
  BitVec.ofBool f.c ++ BitVec.ofBool f.p ++ BitVec.ofBool f.z ++ BitVec.ofBool f.s

/-- The pins of a cycle of the history (20_memory.md R54). -/
def BusEvent.pins (e : BusEvent) : BusPins :=
  match e with
  | .opcodeFetch a b => ⟨false, .pci, addressT1 a, addressT2 .pci a, .taken b, none⟩
  | .interruptFetch a b => ⟨true, .pci, addressT1 a, addressT2 .pci a, .taken b, none⟩
  | .operandFetch a b => ⟨false, .pcr, addressT1 a, addressT2 .pcr a, .taken b, none⟩
  | .memRead a b => ⟨false, .pcr, addressT1 a, addressT2 .pcr a, .taken b, none⟩
  | .memWrite a b => ⟨false, .pcw, addressT1 a, addressT2 .pcw a, .driven b, none⟩
  | .input port acc data f =>
    ⟨false, .pcc, acc, (0b0100 : BitVec 4) ++ port ++ (1 : BitVec 1), .taken data,
      some (flagNibble f)⟩
  | .output port acc =>
    ⟨false, .pcc, acc, (0b01 : BitVec 2) ++ port ++ (1 : BitVec 1), .idle, none⟩

/-- The cycle type of an event (20_memory.md R64). -/
def BusEvent.cycle (e : BusEvent) : CycleType := e.pins.cycle

/-- The output events in program order: parameter `IoOut` (20_memory.md R60, D11). -/
def State.outputs (s : State) : List (BitVec 5 × Byte) :=
  s.events.reverse.filterMap fun e =>
    match e with
    | .output port v => some (port, v)
    | .opcodeFetch _ _ | .interruptFetch _ _ | .operandFetch _ _ | .memRead _ _ | .memWrite _ _
    | .input _ _ _ _ => none

end Sys2Proof.Machine
end

