-- ==== Sys2Proof/Machine/Timing.lean ====
section
/-! DEFINITION. The states and cycles an instruction takes (70_reset_and_hazards.md R261 to R264;
20_memory.md R51, R52, R64). No meaning reads anything of this file (D19, log 29). -/

namespace Sys2Proof.Machine

/-- The states of the processor (20_memory.md R52). -/
inductive TState where
  | t1 | t1i | t2 | wait | t3 | stopped | t4 | t5
deriving DecidableEq, Repr

/-- The outputs S0 ++ S1 ++ S2 in a state (20_memory.md R52). -/
def TState.lines (t : TState) : BitVec 3 :=
  match t with
  | .t1 => 0b010
  | .t1i => 0b011
  | .t2 => 0b001
  | .wait => 0b000
  | .t3 => 0b100
  | .stopped => 0b110
  | .t4 => 0b111
  | .t5 => 0b101

/-- A cycle of three, four or five states (20_memory.md R51). -/
def shortCycle : List TState := [.t1, .t2, .t3]

/-- A cycle that uses T4. -/
def fourStateCycle : List TState := [.t1, .t2, .t3, .t4]

/-- A cycle that uses T4 and T5. -/
def fullCycle : List TState := [.t1, .t2, .t3, .t4, .t5]

/-- The cycles of an instruction with the states of each, `acts` saying whether the condition of a
conditional instruction holds (20_memory.md R64; 70_reset_and_hazards.md R263). The undefined bytes
have the one cycle of their fetch and no state count in the source. -/
def instrCycles (i : Instr) (acts : Bool) : List (CycleType × List TState) :=
  match i with
  | .hlt | .hltFF => [(.pci, [.t1, .t2, .t3, .stopped])]
  | .undefined22 | .undefined2A | .undefined32 | .undefined3A | .undefined38 | .undefined39 =>
    [(.pci, [])]
  | .rlc | .rrc | .ral | .rar | .inr _ | .dcr _ | .rst _ | .ret | .lrr _ _ | .adr _ | .acr _
  | .sur _ | .sbr _ | .ndr _ | .xrr _ | .orr _ | .cpr _ => [(.pci, fullCycle)]
  | .rfc _ | .rtc _ => [(.pci, if acts then fullCycle else shortCycle)]
  | .adi _ | .aci _ | .sui _ | .sbi _ | .ndi _ | .xri _ | .ori _ | .cpi _ | .lri _ _ | .adm | .acm
  | .sum | .sbm | .ndm | .xrm | .orm | .cpm | .lrm _ => [(.pci, shortCycle), (.pcr, fullCycle)]
  | .lmi _ => [(.pci, shortCycle), (.pcr, shortCycle), (.pcw, shortCycle)]
  | .lmr _ => [(.pci, fourStateCycle), (.pcw, shortCycle)]
  | .inp _ => [(.pci, shortCycle), (.pcc, fullCycle)]
  | .out _ => [(.pci, shortCycle), (.pcc, shortCycle)]
  | .jmp _ | .cal _ => [(.pci, shortCycle), (.pcr, shortCycle), (.pcr, fullCycle)]
  | .jfc _ _ | .jtc _ _ | .cfc _ _ | .ctc _ _ =>
    [(.pci, shortCycle), (.pcr, shortCycle), (.pcr, if acts then fullCycle else shortCycle)]

/-- Whether a conditional instruction acts in a state, true for every other one (10_state.md R32). -/
def instrActs (i : Instr) (f : Flags) : Bool :=
  match i with
  | .rfc c | .jfc c _ | .cfc c _ => !f.cond c
  | .rtc c | .jtc c _ | .ctc c _ => f.cond c
  | .hlt | .hltFF | .undefined22 | .undefined2A | .undefined32 | .undefined3A | .undefined38
  | .undefined39 | .rlc | .rrc | .ral | .rar | .inr _ | .dcr _ | .adi _ | .aci _ | .sui _ | .sbi _
  | .ndi _ | .xri _ | .ori _ | .cpi _ | .rst _ | .lmi _ | .lri _ _ | .ret | .inp _ | .out _
  | .jmp _ | .cal _ | .adm | .adr _ | .acm | .acr _ | .sum | .sur _ | .sbm | .sbr _ | .ndm
  | .ndr _ | .xrm | .xrr _ | .orm | .orr _ | .cpm | .cpr _ | .lrm _ | .lmr _ | .lrr _ _ => true

/-- Minimum states of an instruction (70_reset_and_hazards.md R263). -/
def instrStates (i : Instr) (acts : Bool) : Nat := ((instrCycles i acts).map fun c => c.2.length).sum

/-- The first cycle of a jammed instruction has T1I for T1, with as many states (R264). -/
def interruptCycle (c : CycleType × List TState) : CycleType × List TState :=
  (c.1, c.2.map fun t => if t = .t1 then .t1i else t)

/-- The two speed grades (00_scope.md R2). -/
inductive Grade where
  | g8008 | g8008v1
deriving DecidableEq, Repr

/-- Shortest clock period in nanoseconds (70_reset_and_hazards.md R262). -/
def Grade.minPeriod (g : Grade) : Nat :=
  match g with
  | .g8008 => 2000
  | .g8008v1 => 1250

/-- Longest clock period in nanoseconds (70_reset_and_hazards.md R262). -/
def maxPeriod : Nat := 3000

/-- Execution time in nanoseconds: two clock periods for each state and each WAIT state
(70_reset_and_hazards.md R261, R264). -/
def executionTime (period waits : Nat) (i : Instr) (acts : Bool) : Nat :=
  (instrStates i acts + waits) * 2 * period

end Sys2Proof.Machine
end

