-- ==== Sys2Proof/Machine/Signals.lean ====
section
/-! DEFINITION. What external hardware sees in each state of the processor: the outputs S0 S1 S2 and
the data bus (20_memory.md R52, R54, R75; 45_machine.md R200). No meaning reads anything of this
file. -/

namespace Sys2Proof.Machine

/-- The data bus in one state of the processor (20_memory.md R52, R54, R75). -/
inductive BusLevel where
  /-- The processor drives this byte. -/
  | driven (b : Byte)
  /-- The processor takes this byte; memory, a device or nobody drives it. -/
  | taken (b : Byte)
  /-- T3 of OUT: nothing is transferred. -/
  | idle
  /-- The processor's output buffers are disabled and the bus floats. -/
  | floating
  /-- T4 of INP: the flags on D3 to D0; D7 to D4 are not specified (U7, log 25). -/
  | flags (n : BitVec 4)
  /-- T4 and T5 of any other cycle: for testing only, not specified (U13, log 25). -/
  | unspecified
deriving DecidableEq, Repr

/-- The bus at T3 of a cycle (20_memory.md R54). -/
def Transfer.level (t : Transfer) : BusLevel :=
  match t with
  | .taken b => .taken b
  | .driven b => .driven b
  | .idle => .idle

/-- The bus in a state of a cycle with these pins (20_memory.md R52, R54, R75). -/
def BusPins.during (p : BusPins) (t : TState) : BusLevel :=
  match t with
  | .t1 | .t1i => .driven p.t1
  | .t2 => .driven p.t2
  | .t3 => p.t3.level
  | .t4 =>
    match p.t4 with
    | some n => .flags n
    | none => .unspecified
  | .t5 => .unspecified
  | .wait | .stopped => .floating

/-- What the processor shows at an instruction boundary: STOPPED and a floating bus for as long as a
HLT holds it and no interrupt is requested, else the first state of the coming cycle
(45_machine.md R200; 20_memory.md R52, R75; 60_exceptions.md R213). -/
def State.shown (s : State) : TState × BusLevel :=
  match s.interruptAnswer.1, s.run with
  | some _, _ => (.t1i, .driven (addressT1 s.pc))
  | none, .stopped => (.stopped, .floating)
  | none, .running => (.t1, .driven (addressT1 s.pc))

/-- S0 ++ S1 ++ S2 at an instruction boundary. -/
def State.lines (s : State) : BitVec 3 := s.shown.1.lines

/-- The SIM8-01's pin INT CYCLE: it marks the interrupt cycle (60_exceptions.md R237). That it is
true there and not the reverse is the model's choice (91 N17, log 35). -/
def BusPins.intCycle (p : BusPins) : Bool := p.interrupt

end Sys2Proof.Machine
end

