-- ==== Sys2Proof/Machine/Sim801.lean ====
section
/-! DEFINITION. The SIM8-01 board as one instance of the environment (20_memory.md R66;
60_exceptions.md R236 to R241): its memory map, its interrupt latch and instruction port, its input
and output ports, its flag latch and its teletype. Nothing of the processor rests on this file
(log 28). -/

namespace Sys2Proof.Machine

/-- The memory map as shipped: ROM 0 to 2047, RAM 2048 to 3071, nothing above (20_memory.md R66). -/
def sim801Map : List Region := [⟨0, 2048, .rom⟩, ⟨2048, 1024, .ram⟩]

/-- First address of a RAM bank 0 to 3 (20_memory.md R66; 60_exceptions.md R241). -/
def sim801Bank (k : BitVec 2) : Addr := BitVec.ofNat 14 (2048 + 256 * k.toNat)

/-- The re-entry address of the bootstrap loader (60_exceptions.md R241). -/
def loaderReentry : Addr := 462

/-- Where jumper box B gates a request (R237). The spec does not say; each is admitted (91 N17,
log 31). -/
inductive BoxB where
  /-- Before the flip-flop: a request that comes while the processor runs is lost. -/
  | beforeLatch
  /-- After the flip-flop: such a request stays latched until the processor is STOPPED. -/
  | afterLatch
deriving DecidableEq, Repr

/-- The board around a processor. -/
structure Sim801 where
  cpu : State
  /-- The external flip-flop A33, which latches an interrupt request (R237). -/
  intLatch : Bool
  /-- Jumper box B: interrupts are recognised only in the STOPPED state (R237). -/
  stoppedOnly : Bool
  /-- Where box B gates a request (log 31). -/
  boxB : BoxB
  /-- The interrupt instruction input port (R238). -/
  intPort : Byte
  /-- The data on the connector lines of input ports 0 to 7 (R236). -/
  inputLines : Vector Byte 8
  /-- Connector line J1-29, DATA COMPLEMENT, is at +5 V: input data reaches the processor true
  (R239). -/
  dataTrue : Bool
  /-- Input ports fitted beside the board's two (R236). -/
  addedInputs : Nat
  /-- Output ports fitted beside the board's four (R236). -/
  addedOutputs : Nat
  /-- What the output latches came up with at power-up; nothing clears them (R239, log 28). -/
  outputPowerUp : Vector Byte 24
  /-- What the flag latch A43 came up with at power-up (R236, log 28). -/
  flagPowerUp : Flags
  /-- The level of the teletype's start bit on DATA IN, the idle level being the other; the spec
  does not give it (91 N29, log 33). -/
  startLevel : Bool
deriving DecidableEq, Repr

/-! ### Interrupts -/

/-- Box B holds requests back: the jumper is set and the processor is not STOPPED (R237). -/
def Sim801.held (b : Sim801) : Bool := b.stoppedOnly && decide (b.cpu.run = .running)

/-- A request from connector J1-1 or the push-button sets the latch (R237), unless box B stands
before the latch and holds the request back: then it is lost. Which of the two box B does is the
model's open choice (log 31). -/
def Sim801.request (b : Sim801) : Sim801 :=
  match b.boxB with
  | .beforeLatch => { b with intLatch := b.intLatch || !b.held }
  | .afterLatch => { b with intLatch := true }

/-- The INT line of the processor at an instruction boundary (R237). A latched request that box B
holds back stays latched: R237 names no reset of the latch but T1I (log 31). -/
def Sim801.intLine (b : Sim801) : Bool := b.intLatch && !b.held

/-- What the board does in an interrupt cycle: one byte from the port, operand bytes from memory
(R238). -/
def Sim801.jam (b : Sim801) : Jam := ⟨.supplied b.intPort, .memoryAtPc, .memoryAtPc⟩

/-- The processor with the board's answer to the coming instruction boundary. -/
def Sim801.interrupted (b : Sim801) : State :=
  { b.cpu with intSource := if b.intLine then [some b.jam] else [] }

/-! ### Input ports -/

/-- The board has this input port: 0 and 1, and those added to them (R236). -/
def Sim801.inputFitted (b : Sim801) (port : BitVec 3) : Bool :=
  decide (port.toNat < 2 + b.addedInputs)

/-- The schedule of input bytes that an INP of a port meets: the data on the port's lines where the
port is fitted and J1-29 is at +5 V (R236, R239); empty, which leaves the byte free, where there is
no port (44_input_output.md R191) or J1-29 is not at +5 V, for which the spec gives no data
(log 32). -/
def Sim801.inputFrom (b : Sim801) (port : BitVec 3) : List Byte :=
  if b.inputFitted port && b.dataTrue then [b.inputLines[port.toNat]] else []

/-- The schedule of input bytes for what the processor executes next. -/
def Sim801.inputFor (b : Sim801) (i : Option Instr) : List Byte :=
  match i with
  | some (.inp port) => b.inputFrom port
  | _ => []

/-- The processor as it stands before the board's next step, with the board's interrupt answer and
the byte of the input port that the coming instruction reads. -/
def Sim801.presented (b : Sim801) : State :=
  { b.interrupted with inputs := b.inputFor b.interrupted.boundary.1 }

/-- One step of the processor on the board; the latch is reset by T1I (R237). -/
def Sim801.step (b : Sim801) : Host.Outcome Sim801 Fault Refusal :=
  match Sys2Proof.Machine.step b.presented with
  | .next cpu => .next { b with cpu := cpu, intLatch := b.intLatch && !b.intLine }
  | .fault r => .fault r
  | .refused r => .refused r

/-! ### Output ports and the flag latch -/

/-- The newest byte sent to an output device, if there was one. -/
def lastOutput (events : List BusEvent) (port : BitVec 5) : Option Byte :=
  match events with
  | [] => none
  | .output q v :: rest => if q = port then some v else lastOutput rest port
  | .opcodeFetch _ _ :: rest => lastOutput rest port
  | .interruptFetch _ _ :: rest => lastOutput rest port
  | .operandFetch _ _ :: rest => lastOutput rest port
  | .memRead _ _ :: rest => lastOutput rest port
  | .memWrite _ _ :: rest => lastOutput rest port
  | .input _ _ _ _ :: rest => lastOutput rest port

/-- The newest flags driven out by an INP, if there was one. -/
def lastFlags (events : List BusEvent) : Option Flags :=
  match events with
  | [] => none
  | .input _ _ _ f :: _ => some f
  | .opcodeFetch _ _ :: rest => lastFlags rest
  | .interruptFetch _ _ :: rest => lastFlags rest
  | .operandFetch _ _ :: rest => lastFlags rest
  | .memRead _ _ :: rest => lastFlags rest
  | .memWrite _ _ :: rest => lastFlags rest
  | .output _ _ :: rest => lastFlags rest

/-- The output device number of output port 0 to 23, that is 8 to 31 (R236). -/
def sim801Port (n : Fin 24) : BitVec 5 := BitVec.ofNat 5 (8 + n.val)

/-- The board has this output port: 0 to 3, and those added to them (R236). -/
def Sim801.outputFitted (b : Sim801) (n : Fin 24) : Bool := decide (n.val < 4 + b.addedOutputs)

/-- The latch of an output port: the last byte sent to it, before the first OUT what it came up with
(R236, R239). -/
def Sim801.outputLatch (b : Sim801) (n : Fin 24) : Byte :=
  (lastOutput b.cpu.events (sim801Port n)).getD b.outputPowerUp[n]

/-- The latched byte complemented, as all output ports show it (R239; for added ports log 34). -/
def Sim801.complement (b : Sim801) (n : Fin 24) : Byte := ~~~(b.outputLatch n)

/-- The pins of an output port, `none` where no such port is fitted (R236, R239). -/
def Sim801.outputPins (b : Sim801) (n : Fin 24) : Option Byte :=
  if b.outputFitted n then some (b.complement n) else none

/-- The flag latch A43: the flags of the newest INP, before the first one what it came up with
(R236). -/
def Sim801.flagLatch (b : Sim801) : Flags := (lastFlags b.cpu.events).getD b.flagPowerUp

/-- The connector pins S, Z, P, C of the flag latch, in this order (R236). That a pin shows its flag
true and not complemented is the model's choice, for the spec gives no polarity (91 N17, log 35). -/
def Sim801.flagPins (b : Sim801) : List Bool :=
  [b.flagLatch.s, b.flagLatch.z, b.flagLatch.p, b.flagLatch.c]

/-! ### The teletype -/

/-- One bit time of the teletype's line (R240). -/
inductive TeletypeBit where
  | idle
  | start
  | data (v : Bool)
deriving DecidableEq, Repr

/-- The eleven bits of a character in the order of their times: idling, start, eight data bits,
idling (R240). -/
def characterBits (data : Vector Bool 8) : List TeletypeBit :=
  .idle :: .start :: data.toList.map .data ++ [.idle]

/-- The length of one bit in microseconds (R240). -/
def teletypeBitTime : Nat := 9090

/-- The level of DATA IN in a bit time (R240; log 33). -/
def Sim801.teletypeLevel (b : Sim801) (k : TeletypeBit) : Bool :=
  match k with
  | .idle => !b.startLevel
  | .start => b.startLevel
  | .data v => v

/-- DATA IN takes a level: bit 0 of input port 0 (R240). -/
def Sim801.withDataIn (b : Sim801) (v : Bool) : Sim801 :=
  { b with inputLines := b.inputLines.set 0 (b.inputLines[0].extractLsb' 1 7 ++ BitVec.ofBool v) }

/-- A bit time of the teletype begins: DATA IN takes its level, and the start bit, which is wired to
the interrupt input too, makes a request (R240; log 33). -/
def Sim801.teletype (b : Sim801) (k : TeletypeBit) : Sim801 :=
  match k with
  | .start => (b.withDataIn (b.teletypeLevel .start)).request
  | .idle => b.withDataIn (b.teletypeLevel .idle)
  | .data v => b.withDataIn (b.teletypeLevel (.data v))

/-- DATA IN: bit 0 of input port 0 (R240). -/
def Sim801.teletypeIn (b : Sim801) : Bool := b.inputLines[0][0]

/-- DATA OUT: bit 0 of output port 2 (R240). -/
def Sim801.teletypeOut (b : Sim801) : Bool := (b.complement 2)[0]

/-- READER CONTROL: bit 0 of output port 3 (R240). -/
def Sim801.readerControl (b : Sim801) : Bool := (b.complement 3)[0]

end Sys2Proof.Machine
end

