-- ==== Sys2Proof/Safety.lean ====
section
/-! DEFINITION. Runs, and what counts as a safe run: one that never leaves what the manual describes
(60_exceptions.md R210, R211). -/

namespace Sys2Proof.Machine

/-- `k` steps from `s` end in `t`. -/
def RunsTo (k : Nat) (s t : State) : Prop := Host.Core.run Sys2Proof.core k s = .next t

/-- Some number of steps from `s` ends in `t`. -/
def Reaches (s t : State) : Prop := ∃ k, RunsTo k s t

/-- No run from `s` executes an undefined first byte. -/
def Safe (s : State) : Prop := ∀ k, ∃ t, RunsTo k s t

/-- The environment requests no interrupt at the next `k` instruction boundaries. -/
def QuietFor (k : Nat) (s : State) : Prop := ∀ j < k, (s.intSource[j]?).join = none

end Sys2Proof.Machine
end

