-- ==== Sys2Proof/Certificates/Slice0/Obligations.lean ====
section
/-! DEFINITION. The statements about the 8008 for the provers, and the words they are said in. A sum,
a parity or a target is written here from the spec's rule, not by the model's own function. -/

open Sys2Proof Sys2Proof.Machine

namespace Sys2Proof.Claims

/-! ### Encodings and fetching -/

/-- `bytes` decode to `i`, which takes these bus cycles (the first fetch among them) and this many
states where it acts (the "Encoding" line of an instruction's rule). -/
def Form (i : Instr) (bytes : List Byte) (cycles : List CycleType) (states : Nat) : Prop :=
  i.WellFormed ∧ decode bytes = .ok (i, []) ∧ (instrCycles i true).map (·.1) = cycles ∧
    instrStates i true = states

/-- The length of an instruction by 30_encoding.md R90, on the number of its first byte. -/
def lengthOf (b : Byte) : Nat :=
  if b.toNat / 64 = 1 ∧ b.toNat % 2 = 0 then 3
  else if b.toNat / 64 = 0 ∧ b.toNat % 8 = 4 then 2
  else if b.toNat / 64 = 0 ∧ b.toNat % 8 = 6 then 2
  else 1

/-- The six first bytes of 30_encoding.md R96. -/
def undefinedBytes : List Byte := [0x38, 0x39, 0x22, 0x2A, 0x32, 0x3A]

/-- A byte is what the bus brings at an address from its source: what memory answers there, which is
a free byte where nothing does, or what the interrupting hardware supplies (20_memory.md R56, R68;
60_exceptions.md R215, R217). -/
def Brings (s : State) (a : Addr) (src : BusSource) (b : Byte) : Prop :=
  match src with
  | .supplied x => x = b
  | .memoryAtPc => s.busByte a = b

/-- Operand bytes are what the bus brings in operand cycles from an address on, each from its
source. -/
def BringsAll (s : State) (a : Addr) (srcs : List BusSource) (bytes : List Byte) : Prop :=
  match bytes, srcs with
  | [], _ => True
  | _ :: _, [] => False
  | b :: bytes, src :: srcs =>
    Brings s a src b ∧
      BringsAll { s with events := .operandFetch a b :: s.events } (a + 1) srcs bytes

/-- An instruction of this first byte and these operand bytes is what memory answers at PC. -/
def FetchBrings (s : State) (b : Byte) (operands : List Byte) : Prop :=
  Brings s s.pc .memoryAtPc b ∧
    BringsAll { s with events := .opcodeFetch s.pc b :: s.events } (s.pc + 1)
      [.memoryAtPc, .memoryAtPc] operands

/-- It is what an interrupt cycle and the operand cycles after it bring. -/
def JamBrings (s : State) (j : Jam) (b : Byte) (operands : List Byte) : Prop :=
  Brings s s.pc j.opcode b ∧
    BringsAll { s with events := .interruptFetch s.pc b :: s.events } s.pc [j.b2, j.b3] operands

/-- The operand fetches of bytes from an address on, newest first. -/
def operandEvents (a : Addr) (bytes : List Byte) : List BusEvent :=
  match bytes with
  | [] => []
  | b :: rest => operandEvents (a + 1) rest ++ [.operandFetch a b]

/-- The state in which an instruction of these bytes, fetched at PC, is executed: PC past it, the
opcode in the instruction register, its fetches in the history, the boundary's answer used up. -/
def fetched (s : State) (b : Byte) (operands : List Byte) : State :=
  { s with
    stack := stackSet s.stack s.sp (s.pc + 1 + BitVec.ofNat 14 operands.length)
    ir := b
    irOrigin := .memory s.pc
    events := operandEvents (s.pc + 1) operands ++ .opcodeFetch s.pc b :: s.events
    intSource := s.intSource.tail }

/-- The same for a jammed instruction: RUNNING, PC advanced by the operand bytes alone. -/
def jammed (s : State) (b : Byte) (operands : List Byte) : State :=
  { s with
    run := .running
    powerUpFF := false
    stack := stackSet s.stack s.sp (s.pc + BitVec.ofNat 14 operands.length)
    ir := b
    irOrigin := .jammed
    events := operandEvents s.pc operands ++ .interruptFetch s.pc b :: s.events
    intSource := s.intSource.tail }

/-- No interrupt is requested at the coming boundary. -/
def NoRequest (s : State) : Prop := s.intSource.head?.join = none

/-! ### Results and flags -/

/-- z, s and p of a result by 10_state.md R31, the carry given. -/
def flagsOf (carry : Bool) (r : Byte) : Flags where
  c := carry
  z := decide (r.toNat = 0)
  s := decide (128 ≤ r.toNat)
  p := decide ((List.range 8).countP (fun k => r.getLsbD k) % 2 = 0)

/-- The eight ALU functions (30_encoding.md R86). -/
inductive AluFn where
  | ad | ac | su | sb | nd | xr | or | cp
deriving DecidableEq, Repr

/-- The field PPP (30_encoding.md R86). -/
def AluFn.ppp (f : AluFn) : BitVec 3 :=
  match f with
  | .ad => 0b000
  | .ac => 0b001
  | .su => 0b010
  | .sb => 0b011
  | .nd => 0b100
  | .xr => 0b101
  | .or => 0b110
  | .cp => 0b111

/-- The register form. -/
def AluFn.onReg (f : AluFn) (r : Reg) : Instr :=
  match f with
  | .ad => .adr r
  | .ac => .acr r
  | .su => .sur r
  | .sb => .sbr r
  | .nd => .ndr r
  | .xr => .xrr r
  | .or => .orr r
  | .cp => .cpr r

/-- The memory form. -/
def AluFn.onM (f : AluFn) : Instr :=
  match f with
  | .ad => .adm
  | .ac => .acm
  | .su => .sum
  | .sb => .sbm
  | .nd => .ndm
  | .xr => .xrm
  | .or => .orm
  | .cp => .cpm

/-- The immediate form. -/
def AluFn.onByte (f : AluFn) (v : Byte) : Instr :=
  match f with
  | .ad => .adi v
  | .ac => .aci v
  | .su => .sui v
  | .sb => .sbi v
  | .nd => .ndi v
  | .xr => .xri v
  | .or => .ori v
  | .cp => .cpi v

/-- The exact result of a function on the numbers of A, the operand and the carry, before it is
narrowed to a byte (41_accumulator_alu.md R121 to R128). -/
def AluFn.exact (f : AluFn) (x v c : Nat) : Int :=
  match f with
  | .ad => (x : Int) + v
  | .ac => (x : Int) + v + c
  | .su => (x : Int) - v
  | .sb => (x : Int) - v - c
  | .nd => ((x &&& v : Nat) : Int)
  | .xr => ((x ^^^ v : Nat) : Int)
  | .or => ((x ||| v : Nat) : Int)
  | .cp => (x : Int) - v

/-- The 8-bit result. -/
def AluFn.result (f : AluFn) (s : State) (v : Byte) : Byte :=
  BitVec.ofInt 8 (f.exact s.regs.a.toNat v.toNat s.flags.c.toNat)

/-- The new carry: the exact result does not fit a byte. -/
def AluFn.carries (f : AluFn) (s : State) (v : Byte) : Bool :=
  decide (f.exact s.regs.a.toNat v.toNat s.flags.c.toNat < 0 ∨
    255 < f.exact s.regs.a.toNat v.toNat s.flags.c.toNat)

/-- What an ALU instruction leaves: A takes the result unless it is a compare, all four flags are
written, nothing else changes. -/
def AluFn.after (f : AluFn) (s : State) (v : Byte) : State :=
  { s with
    regs := if f = .cp then s.regs else { s.regs with a := f.result s v }
    flags := flagsOf (f.carries s v) (f.result s v) }

/-- The state after a PCR cycle that read the operand M (20_memory.md R54, R56). -/
def afterReadM (s : State) : State :=
  { s with events := .memRead s.hl (s.busByte s.hl) :: s.events }

/-- The flag a condition names (10_state.md R32). -/
def flagNamed (f : Flags) (c : Cond) : Bool :=
  match c with
  | .carry => f.c
  | .zero => f.z
  | .sign => f.s
  | .parity => f.p

/-- PC takes a value (10_state.md R27). -/
def withPc (s : State) (a : Addr) : State :=
  { s with stack := s.stack.set s.sp.toNat a s.sp.isLt }

/-- The address stack after `Push(t)` (10_state.md R28). -/
def called (s : State) (t : Addr) : State :=
  { s with
    sp := s.sp + 1
    stack := s.stack.set (s.sp + 1).toNat t (s.sp + 1).isLt }

/-- The address stack after `Pop()` (10_state.md R29). -/
def returned (s : State) : State := { s with sp := s.sp - 1 }

/-- Instructions executed one after another, without their fetches. -/
def execAll (is : List Instr) (s : State) : Result :=
  match is with
  | [] => .next s
  | i :: rest =>
    match exec i s with
    | .next t => execAll rest t
    | .fault r => .fault r
    | .refused r => .refused r

/-! ### Groups of instructions -/

/-- The instructions that write the carry (10_state.md R33). -/
def WritesCarry (i : Instr) : Prop :=
  (∃ f r, i = AluFn.onReg f r) ∨ (∃ f, i = AluFn.onM f) ∨ (∃ f v, i = AluFn.onByte f v) ∨
    i = .rlc ∨ i = .rrc ∨ i = .ral ∨ i = .rar

/-- The instructions that write z, s and p (10_state.md R33). -/
def WritesZsp (i : Instr) : Prop :=
  (∃ f r, i = AluFn.onReg f r) ∨ (∃ f, i = AluFn.onM f) ∨ (∃ f v, i = AluFn.onByte f v) ∨
    (∃ r, i = .inr r) ∨ ∃ r, i = .dcr r

/-- The instructions that move or write the address stack (10_state.md R25). -/
def WritesStack (i : Instr) : Prop :=
  (∃ t, i = .jmp t) ∨ (∃ c t, i = .jfc c t) ∨ (∃ c t, i = .jtc c t) ∨ (∃ t, i = .cal t) ∨
    (∃ c t, i = .cfc c t) ∨ (∃ c t, i = .ctc c t) ∨ i = .ret ∨ (∃ c, i = .rfc c) ∨
    (∃ c, i = .rtc c) ∨ ∃ a, i = .rst a

/-- The instructions that write memory (20_memory.md R57). -/
def WritesMemory (i : Instr) : Prop := (∃ r, i = .lmr r) ∨ ∃ v, i = .lmi v

/-- The instructions whose operand is M and that use no register beside it but A
(10_state.md R23). -/
def AddressesM (i : Instr) : Prop :=
  (∃ f, i = AluFn.onM f) ∨ (∃ r, i = .lrm r) ∨ (∃ v, i = .lmi v) ∨ ∃ r, r ≠ .h ∧ i = .lmr r

/-! ### Invariants -/

/-- The state of an 8008 between power-up and its first interrupt: everything the clearing left is
still there (10_state.md R38, R40). -/
def Untouched (s : State) : Prop :=
  s.run = .stopped ∧ (∀ r, s.readReg r = 0) ∧ (∀ k, stackGet s.stack k = 0) ∧ s.ir = 0 ∧
    s.events = []

/-- What every step keeps: memory is in its canonical form; while the power-up flip-flop is set,
nothing that power-up left has changed; the flip-flop is set exactly as long as the instruction
register holds the forced HALT; once it is reset there has been a bus cycle, and the oldest one is
an interrupt cycle that sent out address 0; every output went to a device 8 to 31. -/
structure StepInv (s : State) : Prop where
  memory : s.mem.wf = true
  untouched : s.powerUpFF = true → Untouched s
  forced : s.powerUpFF = true ↔ s.irOrigin = .powerUp
  begun : s.powerUpFF = false → s.events ≠ []
  oldest : ∀ e, s.events.getLast? = some e → ∃ b, e = .interruptFetch 0 b
  ports : ∀ port v, BusEvent.output port v ∈ s.events → 8 ≤ port.toNat

/-- An 8008 after power-up in any system: any flags, any pointer, any memory, memory map, interrupt
answers and input bytes. -/
def PoweredUp (s : State) : Prop :=
  ∃ f k mem map src ins, s = { State.powerUp f k with
    mem := mem, memMap := map, intSource := src, inputs := ins }

/-- The address stack turned by `k` places, the pointer with it (10_state.md R26). -/
def turned (k : StackPtr) (s : State) : State :=
  { s with
    sp := s.sp + k
    stack := Vector.ofFn fun n : Fin 8 => stackGet s.stack (BitVec.ofFin n - k) }

/-- A function on next states, applied to an outcome. -/
def mapNext (g : State → State) (o : Result) : Result :=
  match o with
  | .next t => .next (g t)
  | .fault r => .fault r
  | .refused r => .refused r

/-- The interrupting hardware jams LAA, the no-operation (60_exceptions.md R223). -/
def jamLaa : Jam := ⟨.supplied 0xC0, .memoryAtPc, .memoryAtPc⟩

/-! ### The SIM8-01 board -/

/-- What an instruction finds on the SIM8-01's input ports: for INP of a port that is fitted, with
J1-29 at +5 V, the data on its lines; nothing that the spec gives otherwise (60_exceptions.md R236,
R239; log 32). -/
def boardInput (b : Sim801) (i : Instr) : List Byte :=
  match i with
  | .inp port =>
    if port.toNat < 2 + b.addedInputs ∧ b.dataTrue = true then [b.inputLines[port.toNat]] else []
  | _ => []

/-- The board's processor with that input before it and no further request behind it. -/
def boardCpu (b : Sim801) (i : Instr) : State :=
  { b.cpu with intSource := [], inputs := boardInput b i }

end Sys2Proof.Claims

open Sys2Proof.Claims

/-! ### Decoding and encoding -/

/-- DERIVED from 30_encoding.md R91 to R97: decoding the canonical bytes of a well-formed
instruction gives it back, with what follows the bytes, at every value of every operand. That the
six undefined rows take one byte, which R90 and R96 do not give, is the model's choice (log 18). -/
def Obligations.DecodeOfEncode : Prop :=
  ∀ (i : Instr) (rest : List Byte), i.WellFormed → decode (encode i ++ rest) = .ok (i, rest)

/-- DERIVED from 30_encoding.md R90: three bytes always hold an instruction, it is well formed, and
its length is the one its first byte alone gives. That the six undefined bytes take one byte is the
model's choice (log 18). -/
def Obligations.LengthByFirstByte : Prop :=
  ∀ (b b2 b3 : Byte) (rest : List Byte), ∃ i, i.WellFormed ∧
    decode (b :: b2 :: b3 :: rest) = .ok (i, (b2 :: b3 :: rest).drop (lengthOf b - 1))

/-- 30_encoding.md R97: the don't-care bits of JMP, CAL, RET, HLT and of every `<B3>` are ignored,
and the canonical encodings have them all 0, in the third byte of all six three-byte rows too. -/
def Obligations.DontCareBitsIgnored : Prop :=
  (∀ (x : BitVec 3) (b2 b3 : Byte),
    decode [(0b01 : BitVec 2) ++ x ++ (0b100 : BitVec 3), b2, b3] = decode [0x44, b2, b3] ∧
    decode [(0b01 : BitVec 2) ++ x ++ (0b110 : BitVec 3), b2, b3] = decode [0x46, b2, b3] ∧
    decode [(0b00 : BitVec 2) ++ x ++ (0b111 : BitVec 3)] = decode [0x07]) ∧
  (∀ x : BitVec 1, decode [(0 : BitVec 7) ++ x] = decode [0x00]) ∧
  (∀ s : State, exec .hltFF s = exec .hlt s) ∧
  (∀ (b b2 b3 : Byte) (x : BitVec 2), lengthOf b = 3 →
    decode [b, b2, x ++ b3.extractLsb' 0 6] = decode [b, b2, b3]) ∧
  (∀ t : Addr, encode (.jmp t) = [0x44, t.extractLsb' 0 8, (0 : BitVec 2) ++ t.extractLsb' 8 6] ∧
    encode (.cal t) = [0x46, t.extractLsb' 0 8, (0 : BitVec 2) ++ t.extractLsb' 8 6]) ∧
  (∀ (c : Cond) (t : Addr) (i : Instr) (b : Byte),
    (i = .jfc c t ∧ b = (0b010 : BitVec 3) ++ c.code ++ (0b000 : BitVec 3)) ∨
      (i = .jtc c t ∧ b = (0b011 : BitVec 3) ++ c.code ++ (0b000 : BitVec 3)) ∨
      (i = .cfc c t ∧ b = (0b010 : BitVec 3) ++ c.code ++ (0b010 : BitVec 3)) ∨
      (i = .ctc c t ∧ b = (0b011 : BitVec 3) ++ c.code ++ (0b010 : BitVec 3)) →
    encode i = [b, t.extractLsb' 0 8, (0 : BitVec 2) ++ t.extractLsb' 8 6]) ∧
  encode .ret = [0x07] ∧ encode .hlt = [0x00]

/-- DERIVED from 30_encoding.md R91 and 95_test_vectors.md sections 1.1 and 1.2: bytes that the
manual itself prints decode to the instructions they stand for. A sanity statement. -/
def Obligations.PrintedWordsDecode : Prop :=
  decode [0b00110110, 0b11001000] = .ok (.lri .l 200, []) ∧
  decode [0b11000111] = .ok (.lrm .a, []) ∧
  decode [0b00111100, 0b00101110] = .ok (.cpi 0x2E, []) ∧
  decode [0b01101000, 0b01110111, 0] = .ok (.jtc .zero 119, []) ∧
  decode [0b01000110, 0b00111100, 0] = .ok (.cal 60, []) ∧
  decode [0b11000110] = .ok (.lrr .a .l, []) ∧
  decode [0b01001000, 0b01101000, 0] = .ok (.jfc .zero 104, []) ∧
  decode [0b00000111] = .ok (.ret, []) ∧
  decode [0b00110000] = .ok (.inr .l, []) ∧
  decode [0b00001011] = .ok (.rfc .zero, []) ∧
  decode [0b11101011] = .ok (.lrr .h .d, []) ∧
  decode [0b00000101] = .ok (.rst 0, []) ∧
  decode [0b11000000] = .ok (.lrr .a .a, [])

/-! ### Fetching and the interrupt -/

/-- DERIVED from 60_exceptions.md R214 and 20_memory.md R55, R68: where the bytes that the bus brings
at PC decode to an instruction and no interrupt is requested, a step executes it in the state after
its fetch. A byte fetched where nothing answers is the free byte of its cycle (log 11); PC going
from 16383 to 0 within the fetch is the spec's decision D2 (log 1). -/
def Obligations.StepRunsStoredInstruction : Prop :=
  ∀ (s : State) (b : Byte) (operands : List Byte) (i : Instr), s.run = .running → NoRequest s →
    FetchBrings s b operands → decode (b :: operands) = .ok (i, []) →
    step s = exec i (fetched s b operands)

/-- DERIVED from 60_exceptions.md R214 to R218: a requested interrupt is taken whether the processor
runs or is STOPPED; the jammed byte and the operand bytes that the bus brings from their sources
decode to an instruction, and that instruction is executed with PC advanced by its operand bytes
alone and with nothing else changed by the interrupt cycle. That operand cycles advance PC and may
each be answered by memory or by the hardware is the spec's decision D9 (log 8); the wrap of PC is
D2 (log 1); a byte taken where nothing answers is free (log 11). -/
def Obligations.StepRunsJammedInstruction : Prop :=
  ∀ (s : State) (j : Jam) (rest : List (Option Jam)) (b : Byte) (operands : List Byte) (i : Instr),
    s.intSource = some j :: rest → JamBrings s j b operands →
    decode (b :: operands) = .ok (i, []) → step s = exec i (jammed s b operands)

/-- 10_state.md R37: the run state becomes STOPPED by HLT and at power-up, RUNNING only by an
interrupt, and while STOPPED nothing changes but that the boundary's answer is used up. -/
def Obligations.RunStateChanges : Prop :=
  (∀ f k, (State.powerUp f k).run = .stopped) ∧
  (∀ s t, step s = .next t → s.run = .stopped → t.run = .running →
    ∃ j rest, s.intSource = some j :: rest) ∧
  (∀ s t, step s = .next t → s.run = .running → t.run = .stopped →
    t.ir = 0x00 ∨ t.ir = 0x01 ∨ t.ir = 0xFF) ∧
  (∀ s, s.run = .stopped → NoRequest s → step s = .next { s with intSource := s.intSource.tail }) ∧
  ∀ s, (∃ t, exec .hlt s = .next t ∧ t.run = .stopped) ∧
    ∃ t, exec .hltFF s = .next t ∧ t.run = .stopped

/-- DERIVED from 45_machine.md R200 and 60_exceptions.md R214: a STOPPED processor stays as it is
for as many steps as no interrupt is requested. -/
def Obligations.StoppedUntilInterrupted : Prop :=
  ∀ (k : Nat) (s : State), s.run = .stopped → QuietFor k s →
    RunsTo k s { s with intSource := s.intSource.drop k }

/-- DERIVED from 60_exceptions.md R221 (D18, log 20): an interrupt line held for `k` fetches, LAA
jammed each time, leaves every register, flag, stack register, the pointer and memory as they were;
PC never advances. -/
def Obligations.HeldLineNeverAdvances : Prop :=
  ∀ (k : Nat) (s : State), s.intSource.take k = List.replicate k (some jamLaa) →
    ∃ t, RunsTo k s t ∧ t.regs = s.regs ∧ t.flags = s.flags ∧ t.stack = s.stack ∧ t.sp = s.sp ∧
      t.mem = s.mem ∧ t.memMap = s.memMap ∧ t.inputs = s.inputs ∧ (k ≠ 0 → t.run = .running)

/-- DERIVED from 60_exceptions.md R219 and R226: a jammed RST saves exactly the address of the
displaced instruction; when its routine, having kept the stack level, ends in RET, PC is that
address again. The routine may have left any address in its own program counter. That RST writes no
flag is the spec's decision D6 (log 4); the pop from 0 to 7, where the pointer was 7, is D3 (log 2).
-/
def Obligations.JammedRestartReturns : Prop :=
  ∀ (s : State) (aaa : BitVec 3) (x y : BusSource) (rest : List (Option Jam)),
    s.intSource = some ⟨.supplied ((0b00 : BitVec 2) ++ aaa ++ (0b101 : BitVec 3)), x, y⟩ :: rest →
    ∃ t, step s = .next t ∧ t.pc = BitVec.ofNat 14 (8 * aaa.toNat) ∧ t.run = .running ∧
      t.regs = s.regs ∧ t.flags = s.flags ∧ t.mem = s.mem ∧
      ∀ a, ∃ u, exec .ret (withPc t a) = .next u ∧ u.pc = s.pc ∧ u.sp = s.sp

/-- DERIVED from 70_reset_and_hazards.md R252: in every run from power-up, whatever the flags, the
pointer and the system, the oldest bus cycle is an interrupt cycle that sent out address 0. -/
def Obligations.FirstActivityIsInterrupt : Prop :=
  ∀ s t, PoweredUp s → Reaches s t →
    ∀ e, t.events.getLast? = some e → ∃ b, e = .interruptFetch 0 b

/-! ### Power-up and invariants -/

/-- 70_reset_and_hazards.md R251: what power-up leaves, for every value of the flags and of the
pointer, which it leaves open. That `State.reset` takes all flags 0 and pointer 0 is the model's
choice (log 16, 17) and is not stated here. -/
def Obligations.PowerUpState : Prop :=
  ∀ (f : Flags) (k : StackPtr),
    (∀ r, (State.powerUp f k).readReg r = 0) ∧
    (∀ j, stackGet (State.powerUp f k).stack j = 0) ∧ (State.powerUp f k).pc = 0 ∧
    (State.powerUp f k).run = .stopped ∧ (State.powerUp f k).ir = 0x00 ∧
    (State.powerUp f k).flags = f ∧ (State.powerUp f k).sp = k

/-- DERIVED from 10_state.md R38, R40 and 30_encoding.md R89: the invariant holds after power-up,
and so at `State.reset`. That memory lists nothing there is the model's choice (log 10). -/
def Obligations.InvariantAtPowerUp : Prop :=
  (∀ f k, StepInv (State.powerUp f k)) ∧ StepInv State.reset

/-- DERIVED from 10_state.md R38, R40, 30_encoding.md R89, 20_memory.md R57 and
70_reset_and_hazards.md R252: every step keeps the invariant. -/
def Obligations.StepKeepsInvariant : Prop := ∀ s t, StepInv s → step s = .next t → StepInv t

/-- DERIVED from 10_state.md R26 (D3, log 2): the numeric value of the pointer cannot be observed.
Turning the address stack and the pointer together by any number of places changes nothing in any
run but those places. -/
def Obligations.PointerUnobservable : Prop :=
  ∀ (k : StackPtr) (n : Nat) (s : State),
    Host.Core.run Sys2Proof.core n (turned k s) =
      mapNext (turned k) (Host.Core.run Sys2Proof.core n s)

/-! ### The whole machine -/

/-- DERIVED from 60_exceptions.md R210: every instruction the source defines completes in every
state. That the source's silence on exceptions means there are none is the spec's decision D13
(log 19); that READY is given in every cycle, without which no instruction completes, is the model's
assumption `Ready`, D12 (log 15). -/
def Obligations.DefinedInstructionsComplete : Prop :=
  ∀ (i : Instr) (s : State), i.isUndefined = false → ∃ t, exec i s = .next t

/-- DERIVED from 60_exceptions.md R210, R211 and 30_encoding.md R96: a step that takes a byte, from
memory or by a jam, answers a next state if the byte is not one of the six, and the fault with that
byte and its origin if it is; a step that takes none answers a next state. That it is a fault is the
spec's decision D1 (log 18), that nothing else stops a step is D13 (log 19), and that every cycle is
given READY is D12 (log 15). -/
def Obligations.OnlyUndefinedBytesStop : Prop :=
  ∀ s u : State, (s.boundary = (none, u) → step s = .next u) ∧
    ∀ i, s.boundary = (some i, u) →
      (u.ir ∉ undefinedBytes → ∃ t, step s = .next t) ∧
      (u.ir ∈ undefinedBytes → step s = .fault (.undefinedOpcode u.ir u.irOrigin)) ∧
      (∀ a, u.irOrigin = .memory a → a = s.pc ∧ u.ir = s.busByte s.pc) ∧
      ∀ j rest, s.intSource = some j :: rest → u.irOrigin = .jammed ∧ Brings s s.pc j.opcode u.ir

/-- DERIVED from 30_encoding.md R96: exactly six first bytes have no meaning, and executing one is
`UndefinedOpcode(b)`. That this is a fault is the spec's decision D1 (log 18). -/
def Obligations.UndefinedBytesFault : Prop :=
  (∀ b b2 b3 : Byte, (decodeBytes b b2 b3).isUndefined = true ↔ b ∈ undefinedBytes) ∧
  ∀ b ∈ undefinedBytes, ∀ (b2 b3 : Byte) (s : State),
    exec (decodeBytes b b2 b3) s = .fault (.undefinedOpcode b s.irOrigin)

/-- DERIVED from 60_exceptions.md R211: the fault carries the byte and the address it was fetched
from, or says that it came through the interrupt cycle; where it stops, PC has been advanced by the
fetch (not by a jam) and the rest is as after any fetch of one byte (D1, log 18). -/
def Obligations.UndefinedFaultCarriesOrigin : Prop :=
  (∀ (s : State) (b : Byte), b ∈ undefinedBytes → s.run = .running → NoRequest s →
    s.busByte s.pc = b → ∃ i, s.boundary = (some i, fetched s b []) ∧
      step s = .fault (.undefinedOpcode b (.memory s.pc))) ∧
  ∀ (s : State) (b : Byte) (x y : BusSource) (rest : List (Option Jam)), b ∈ undefinedBytes →
    s.intSource = some ⟨.supplied b, x, y⟩ :: rest →
    ∃ i, s.boundary = (some i, jammed s b []) ∧ step s = .fault (.undefinedOpcode b .jammed)

/-- DERIVED from 10_state.md R33 (D6 for its last row, log 4): an instruction outside the table's
rows writes no flag; the rotates write the carry alone; INr and DCr leave the carry; the logical
functions clear it. -/
def Obligations.FlagsWrittenByTableOnly : Prop :=
  ∀ (i : Instr) (s t : State), exec i s = .next t →
    (¬ WritesCarry i → t.flags.c = s.flags.c) ∧
    (¬ WritesZsp i → t.flags.z = s.flags.z ∧ t.flags.s = s.flags.s ∧ t.flags.p = s.flags.p) ∧
    (∀ f : AluFn, f = .nd ∨ f = .xr ∨ f = .or →
      ((∃ r, i = f.onReg r) ∨ i = f.onM ∨ ∃ v, i = f.onByte v) → t.flags.c = false)

/-- DERIVED from 20_memory.md R57 and 10_state.md R23: only LMr and LMI write memory, and only at
HL. That no instruction changes the memory map is no rule of the spec but the model's choice (log 9;
bank switching, log 12). -/
def Obligations.MemoryWrittenAtHlOnly : Prop :=
  ∀ (i : Instr) (s t : State), exec i s = .next t →
    t.memMap = s.memMap ∧ (¬ WritesMemory i → t.mem = s.mem) ∧
      ∀ a, a ≠ s.hl → t.memByte a = s.memByte a

/-- DERIVED from 20_memory.md R68: in every run, no byte at an address without RAM ever changes, and
the memory map is what it was. That a write to ROM or to nothing is dropped is the spec's decision
D10 (log 12); that the map is fixed is the model's choice (log 9). -/
def Obligations.RomNeverChanges : Prop :=
  ∀ s t, Reaches s t → t.memMap = s.memMap ∧ ∀ a, s.kindAt a ≠ .ram → t.memByte a = s.memByte a

/-- DERIVED from 10_state.md R25: beside the fetch, only jumps, calls, returns and RST change the
address stack or its pointer. -/
def Obligations.StackWrittenByControlOnly : Prop :=
  ∀ (i : Instr) (s t : State), exec i s = .next t → ¬ WritesStack i →
    t.stack = s.stack ∧ t.sp = s.sp

/-- DERIVED from 20_memory.md R64: the bus cycles that an instruction adds to the history, from its
first fetch, are of the types in the table's row, in its order, for a fetched and for a jammed
instruction. -/
def Obligations.BusCyclesInOrder : Prop :=
  ∀ (s u t : State) (i : Instr), s.boundary = (some i, u) → exec i u = .next t →
    t.events.map BusEvent.cycle =
      ((instrCycles i true).map (·.1)).reverse ++ s.events.map BusEvent.cycle

/-- DERIVED from 20_memory.md R53 and R54: D7 and D6 at T2 are 00 in a PCI cycle, 10 in a PCR, 01 in
a PCC and 11 in a PCW, and external hardware reads the cycle type off them; T1I marks the interrupt
cycle alone; the address of a memory cycle stands on T1 and T2, and in a PCC cycle the opcode on T2
and the accumulator on T1. -/
def Obligations.PinsTellTheCycle : Prop :=
  (∀ (a : Addr) (v : Byte) (t2 : Byte) (code : BitVec 2) (cycle : CycleType),
    ((t2 = (BusEvent.opcodeFetch a v).pins.t2 ∨ t2 = (BusEvent.interruptFetch a v).pins.t2) ∧
        code = 0b00 ∧ cycle = .pci) ∨
      ((t2 = (BusEvent.operandFetch a v).pins.t2 ∨ t2 = (BusEvent.memRead a v).pins.t2) ∧
        code = 0b10 ∧ cycle = .pcr) ∨
      (((∃ port acc f, t2 = (BusEvent.input port acc v f).pins.t2) ∨
          ∃ port, t2 = (BusEvent.output port v).pins.t2) ∧ code = 0b01 ∧ cycle = .pcc) ∨
      (t2 = (BusEvent.memWrite a v).pins.t2 ∧ code = 0b11 ∧ cycle = .pcw) →
    t2.extractLsb' 6 2 = code ∧ cycleOfT2 t2 = cycle) ∧
  (∀ e : BusEvent, cycleOfT2 e.pins.t2 = e.pins.cycle) ∧
  (∀ e : BusEvent, e.pins.interrupt = true ↔ ∃ a v, e = .interruptFetch a v) ∧
  (∀ (a : Addr) (v : Byte), ∀ e ∈ [BusEvent.opcodeFetch a v, .interruptFetch a v,
      .operandFetch a v, .memRead a v, .memWrite a v],
    e.pins.t2.extractLsb' 0 6 ++ e.pins.t1 = a) ∧
  (∀ (port : BitVec 3) (acc data : Byte) (f : Flags),
    encode (.inp port) = [(BusEvent.input port acc data f).pins.t2] ∧
      (BusEvent.input port acc data f).pins.t1 = acc) ∧
  ∀ (port : BitVec 5) (acc : Byte), encode (.out port) = [(BusEvent.output port acc).pins.t2] ∧
    (BusEvent.output port acc).pins.t1 = acc ∧ (BusEvent.output port acc).pins.t3 = .idle

/-- DERIVED from 10_state.md R23, R24 and 20_memory.md R58: two states that differ only in bits 7
and 6 of H make the same bus cycles and leave the same memory in every instruction that names M
(LMH, which stores H, apart). -/
def Obligations.HighBitsOfHNeverSent : Prop :=
  ∀ (s : State) (h : Byte) (i : Instr), AddressesM i →
    h.extractLsb' 0 6 = s.regs.h.extractLsb' 0 6 →
    ∃ t u, exec i s = .next t ∧ exec i { s with regs := { s.regs with h := h } } = .next u ∧
      t.events = u.events ∧ t.mem = u.mem

/-- DERIVED from 20_memory.md R60: OUT puts its port and A at the end of the sequence of outputs,
and no other instruction puts anything there. -/
def Obligations.OutputsInProgramOrder : Prop :=
  ∀ (i : Instr) (s t : State), exec i s = .next t →
    (∀ port, i = .out port → t.outputs = s.outputs ++ [(port, s.regs.a)]) ∧
    ((∀ port, i ≠ .out port) → t.outputs = s.outputs)

/-- DERIVED from 20_memory.md R70 and R72: a byte stored to RAM by LMr or LMI is what the very next
opcode fetch from that address takes. That the next fetch sees the store is the spec's decision D7
(log 5), no sentence of the source. -/
def Obligations.StoreSeenByNextFetch : Prop :=
  ∀ (s : State), s.mem.wf = true → s.kindAt s.hl = .ram → s.pc = s.hl →
    (∀ r, ∃ t, exec (.lmr r) s = .next t ∧ t.fetchOpcode.1 = s.readReg r) ∧
    ∀ v, ∃ t, exec (.lmi v) s = .next t ∧ t.fetchOpcode.1 = v

/-! ### The address stack -/

/-- DERIVED from 00_scope.md R6, 10_state.md R28, R29 and 43_control_transfer.md R181 (D3 where the
pointer goes from 0 to 7, log 2): up to seven nested calls and as many returns give back PC and the
pointer. That CAL and RET write no flag is D6 (log 4). -/
def Obligations.SevenNestedCallsReturn : Prop :=
  ∀ (ts : List Addr) (s : State), ts.length ≤ 7 →
    ∃ u, execAll (ts.map Instr.cal ++ List.replicate ts.length .ret) s = .next u ∧ u.pc = s.pc ∧
      u.sp = s.sp ∧ u.regs = s.regs ∧ u.flags = s.flags

/-- DERIVED from 10_state.md R28 and 70_reset_and_hazards.md R257 (D3, log 2): an eighth nested call
destroys the oldest return address; after eight returns PC is what the eighth call left in that
register. -/
def Obligations.EighthCallDestroysOldest : Prop :=
  ∀ (ts : List Addr) (t : Addr) (s : State), ts.length = 7 →
    ∃ u v, execAll ((ts ++ [t]).map Instr.cal) s = .next u ∧ u.sp = s.sp ∧ u.pc = t ∧
      execAll (List.replicate 8 .ret) u = .next v ∧ v.sp = s.sp ∧ v.pc = t

/-! ### Index register instructions -/

/-- 40_index_register.md R111. -/
def Obligations.LoadRegisterFromRegister : Prop :=
  ∀ (r1 r2 : Reg) (s : State),
    Form (.lrr r1 r2) [(0b11 : BitVec 2) ++ r1.code ++ r2.code] [.pci] 5 ∧
    (∃ t, exec (.lrr r1 r2) s = .next t ∧ t.readReg r1 = s.readReg r2 ∧
      (∀ q, q ≠ r1 → t.readReg q = s.readReg q) ∧ t = { s with regs := t.regs }) ∧
    exec (.lrr r1 r1) s = .next s

/-- 40_index_register.md R112: the address is formed from the old H and L. -/
def Obligations.LoadRegisterFromMemory : Prop :=
  ∀ (r : Reg) (s : State),
    Form (.lrm r) [(0b11 : BitVec 2) ++ r.code ++ (0b111 : BitVec 3)] [.pci, .pcr] 8 ∧
    ∃ t, exec (.lrm r) s = .next t ∧ t.readReg r = s.busByte s.hl ∧
      (∀ q, q ≠ r → t.readReg q = s.readReg q) ∧ t = { afterReadM s with regs := t.regs }

/-- DERIVED from 20_memory.md R56 and R68 (log 11 for the free byte): a read of M gives the stored
byte where RAM or ROM answers, and the free byte of its position where nothing does. -/
def Obligations.ReadOfMByKind : Prop :=
  ∀ (r : Reg) (s : State), ∃ t, exec (.lrm r) s = .next t ∧
    (s.kindAt s.hl ≠ .absent → t.readReg r = s.memByte s.hl) ∧
    (s.kindAt s.hl = .absent → t.readReg r = Config.floatingByte s.events.length)

/-- 10_state.md R23: the address of M is H[5:0] ++ L, and bits 7 and 6 of H take no part. -/
def Obligations.AddressOfM : Prop :=
  ∀ s : State, s.hl.toNat = s.regs.h.toNat % 64 * 256 + s.regs.l.toNat

/-- 40_index_register.md R113 and R115: LMr and LMI store at HL, as it is before the instruction;
RAM takes the byte, every other address and ROM keep theirs, and nothing but memory and the history
changes. -/
def Obligations.StoreToMemory : Prop :=
  (∀ r : Reg, Form (.lmr r) [(0b11111 : BitVec 5) ++ r.code] [.pci, .pcw] 7) ∧
  (∀ v : Byte, Form (.lmi v) [0b00111110, v] [.pci, .pcr, .pcw] 9) ∧
  ∀ (s : State), s.mem.wf = true → ∀ (i : Instr) (v : Byte),
    (i = .lmi v ∨ ∃ r, i = .lmr r ∧ v = s.readReg r) →
    ∃ t, exec i s = .next t ∧
      t.memByte s.hl = (if s.kindAt s.hl = .ram then v else s.memByte s.hl) ∧
      (∀ a, a ≠ s.hl → t.memByte a = s.memByte a) ∧
      t = { s with mem := t.mem, events := .memWrite s.hl v :: s.events }

/-- 40_index_register.md R114. -/
def Obligations.LoadRegisterImmediate : Prop :=
  ∀ (r : Reg) (v : Byte) (s : State),
    Form (.lri r v) [(0b00 : BitVec 2) ++ r.code ++ (0b110 : BitVec 3), v] [.pci, .pcr] 8 ∧
    ∃ t, exec (.lri r v) s = .next t ∧ t.readReg r = v ∧
      (∀ q, q ≠ r → t.readReg q = s.readReg q) ∧ t = { s with regs := t.regs }

/-- 40_index_register.md R116 and R117: plus or minus one mod 256; z, s, p from the result; the
carry, every other register and everything else as before. -/
def Obligations.IncrementAndDecrement : Prop :=
  ∀ (r : Reg) (s : State), r ≠ .a →
    Form (.inr r) [(0b00 : BitVec 2) ++ r.code ++ (0b000 : BitVec 3)] [.pci] 5 ∧
    Form (.dcr r) [(0b00 : BitVec 2) ++ r.code ++ (0b001 : BitVec 3)] [.pci] 5 ∧
    (∃ t, exec (.inr r) s = .next t ∧ (t.readReg r).toNat = ((s.readReg r).toNat + 1) % 256 ∧
      (∀ q, q ≠ r → t.readReg q = s.readReg q) ∧ t.flags = flagsOf s.flags.c (t.readReg r) ∧
      t = { s with regs := t.regs, flags := t.flags }) ∧
    ∃ t, exec (.dcr r) s = .next t ∧ (t.readReg r).toNat = ((s.readReg r).toNat + 255) % 256 ∧
      (∀ q, q ≠ r → t.readReg q = s.readReg q) ∧ t.flags = flagsOf s.flags.c (t.readReg r) ∧
      t = { s with regs := t.regs, flags := t.flags }

/-! ### Accumulator group -/

/-- DERIVED from 41_accumulator_alu.md R121 to R124, R130, R133, R136 and R139: add and subtract a
register, with and without carry. That the carry is cleared where there is none is the spec's
decision D4 (log 3). -/
def Obligations.ArithmeticOnRegister : Prop :=
  ∀ (f : AluFn) (r : Reg) (s : State), f = .ad ∨ f = .ac ∨ f = .su ∨ f = .sb →
    Form (f.onReg r) [(0b10 : BitVec 2) ++ f.ppp ++ r.code] [.pci] 5 ∧
    exec (f.onReg r) s = .next (f.after s (s.readReg r))

/-- DERIVED from 41_accumulator_alu.md R142, R145, R148 and R151: AND, exclusive OR, OR and compare
with a register. That the compare clears the carry where there is no borrow is the spec's decision
D4 (log 3). -/
def Obligations.LogicAndCompareOnRegister : Prop :=
  ∀ (f : AluFn) (r : Reg) (s : State), f = .nd ∨ f = .xr ∨ f = .or ∨ f = .cp →
    Form (f.onReg r) [(0b10 : BitVec 2) ++ f.ppp ++ r.code] [.pci] 5 ∧
    exec (f.onReg r) s = .next (f.after s (s.readReg r))

/-- DERIVED from 41_accumulator_alu.md R131, R134, R137, R140, R143, R146, R149 and R152: the eight
functions on M, which is read once and not written. The carry is cleared where there is none by D4
(log 3). -/
def Obligations.AluOnMemory : Prop :=
  ∀ (f : AluFn) (s : State),
    Form f.onM [(0b10 : BitVec 2) ++ f.ppp ++ (0b111 : BitVec 3)] [.pci, .pcr] 8 ∧
    exec f.onM s = .next (f.after (afterReadM s) (s.busByte s.hl))

/-- DERIVED from 41_accumulator_alu.md R132, R135, R138, R141, R144, R147, R150 and R153: the eight
functions on an immediate byte. The carry is cleared where there is none by D4 (log 3). -/
def Obligations.AluOnImmediate : Prop :=
  ∀ (f : AluFn) (v : Byte) (s : State),
    Form (f.onByte v) [(0b00 : BitVec 2) ++ f.ppp ++ (0b100 : BitVec 3), v] [.pci, .pcr] 8 ∧
    exec (f.onByte v) s = .next (f.after s v)

/-- DERIVED from 41_accumulator_alu.md R128 (D4 for the cleared carry, log 3): after a compare, zero
says equal and carry says less, unsigned, in every form; A is not written. -/
def Obligations.CompareOrdersUnsigned : Prop :=
  ∀ (s : State) (v : Byte) (i : Instr),
    (i = .cpi v ∨ (∃ r, i = .cpr r ∧ v = s.readReg r) ∨ (i = .cpm ∧ v = s.busByte s.hl)) →
    ∃ t, exec i s = .next t ∧ t.regs = s.regs ∧ (t.flags.z = true ↔ s.regs.a = v) ∧
      (t.flags.c = true ↔ s.regs.a.toNat < v.toNat)

/-- DERIVED from 41_accumulator_alu.md R121 to R124 (D4, log 3): the carry joins two bytes to one
16-bit number, for adding (ADI, then ACI on the high bytes) and for subtracting (SUI, then SBI). -/
def Obligations.CarryJoinsBytes : Prop :=
  ∀ (s : State) (lo hi v w : Byte),
    (∃ t u, exec (.adi v) (s.writeReg .a lo) = .next t ∧ exec (.aci w) (t.writeReg .a hi) = .next u ∧
      u.flags.c.toNat * 65536 + u.regs.a.toNat * 256 + t.regs.a.toNat =
        (hi.toNat * 256 + lo.toNat) + (w.toNat * 256 + v.toNat)) ∧
    ∃ t u, exec (.sui v) (s.writeReg .a lo) = .next t ∧ exec (.sbi w) (t.writeReg .a hi) = .next u ∧
      u.regs.a.toNat * 256 + t.regs.a.toNat + (w.toNat * 256 + v.toNat) =
        u.flags.c.toNat * 65536 + (hi.toNat * 256 + lo.toNat)

/-! ### Rotates -/

/-- 42_rotate.md R161 to R164: the four rotates as numbers; the carry takes the bit that leaves; z,
s, p and everything else stay. -/
def Obligations.RotatesMoveOneBit : Prop :=
  ∀ (s : State) (i : Instr) (b : Byte) (x : Nat) (c : Bool),
    ((i = .rlc ∧ b = 0b00000010 ∧ x = s.regs.a.toNat * 2 % 256 + s.regs.a.toNat / 128 ∧
        c = decide (128 ≤ s.regs.a.toNat)) ∨
      (i = .rrc ∧ b = 0b00001010 ∧ x = s.regs.a.toNat / 2 + s.regs.a.toNat % 2 * 128 ∧
        c = decide (s.regs.a.toNat % 2 = 1)) ∨
      (i = .ral ∧ b = 0b00010010 ∧ x = s.regs.a.toNat * 2 % 256 + s.flags.c.toNat ∧
        c = decide (128 ≤ s.regs.a.toNat)) ∨
      (i = .rar ∧ b = 0b00011010 ∧ x = s.regs.a.toNat / 2 + s.flags.c.toNat * 128 ∧
        c = decide (s.regs.a.toNat % 2 = 1))) →
    Form i [b] [.pci] 5 ∧
    exec i s = .next { s with
      regs := { s.regs with a := BitVec.ofNat 8 x }
      flags := { s.flags with c := c } }

/-- DERIVED from 42_rotate.md R161 to R164: eight RLC or eight RRC give A back; nine RAL or nine RAR
give back A and the carry. -/
def Obligations.RotatesComeRound : Prop :=
  ∀ s : State,
    (∃ t, execAll (List.replicate 8 .rlc) s = .next t ∧ t.regs = s.regs) ∧
    (∃ t, execAll (List.replicate 8 .rrc) s = .next t ∧ t.regs = s.regs) ∧
    execAll (List.replicate 9 .ral) s = .next s ∧ execAll (List.replicate 9 .rar) s = .next s

/-! ### Program counter and stack control -/

/-- DERIVED from 43_control_transfer.md R171 to R173: JMP, JFc and JTc; bits 7 and 6 of `<B3>` and
the don't-care bits of JMP play no part; when the condition fails PC is already past the
instruction. That no flag is written is the spec's decision D6 (log 4). -/
def Obligations.JumpsSetPc : Prop :=
  ∀ (c : Cond) (x : BitVec 3) (b2 b3 : Byte) (s : State),
    Form (.jmp (b3.extractLsb' 0 6 ++ b2)) [(0b01 : BitVec 2) ++ x ++ (0b100 : BitVec 3), b2, b3]
      [.pci, .pcr, .pcr] 11 ∧
    Form (.jfc c (b3.extractLsb' 0 6 ++ b2))
      [(0b010 : BitVec 3) ++ c.code ++ (0b000 : BitVec 3), b2, b3] [.pci, .pcr, .pcr] 11 ∧
    Form (.jtc c (b3.extractLsb' 0 6 ++ b2))
      [(0b011 : BitVec 3) ++ c.code ++ (0b000 : BitVec 3), b2, b3] [.pci, .pcr, .pcr] 11 ∧
    ∀ t : Addr, instrStates (.jfc c t) false = 9 ∧ instrStates (.jtc c t) false = 9 ∧
      exec (.jmp t) s = .next (withPc s t) ∧
      exec (.jfc c t) s = .next (if flagNamed s.flags c = false then withPc s t else s) ∧
      exec (.jtc c t) s = .next (if flagNamed s.flags c = true then withPc s t else s)

/-- DERIVED from 43_control_transfer.md R174 to R176: CAL, CFc and CTc push; the register the
pointer leaves keeps PC, the return address. That no flag is written is the spec's decision D6 (log
4). -/
def Obligations.CallsPush : Prop :=
  ∀ (c : Cond) (x : BitVec 3) (b2 b3 : Byte) (s : State),
    Form (.cal (b3.extractLsb' 0 6 ++ b2)) [(0b01 : BitVec 2) ++ x ++ (0b110 : BitVec 3), b2, b3]
      [.pci, .pcr, .pcr] 11 ∧
    Form (.cfc c (b3.extractLsb' 0 6 ++ b2))
      [(0b010 : BitVec 3) ++ c.code ++ (0b010 : BitVec 3), b2, b3] [.pci, .pcr, .pcr] 11 ∧
    Form (.ctc c (b3.extractLsb' 0 6 ++ b2))
      [(0b011 : BitVec 3) ++ c.code ++ (0b010 : BitVec 3), b2, b3] [.pci, .pcr, .pcr] 11 ∧
    ∀ t : Addr, instrStates (.cfc c t) false = 9 ∧ instrStates (.ctc c t) false = 9 ∧
      exec (.cal t) s = .next (called s t) ∧
      exec (.cfc c t) s = .next (if flagNamed s.flags c = false then called s t else s) ∧
      exec (.ctc c t) s = .next (if flagNamed s.flags c = true then called s t else s) ∧
      (called s t).pc = t ∧ stackGet (called s t).stack s.sp = s.pc

/-- DERIVED from 43_control_transfer.md R177 to R179: RET, RFc and RTc pop; nothing is copied, the
flags are not restored. The pointer goes from 0 to 7 and no flag is written by D3 and D6 (log 2, 4).
-/
def Obligations.ReturnsPop : Prop :=
  ∀ (c : Cond) (x : BitVec 3) (s : State),
    Form .ret [(0b00 : BitVec 2) ++ x ++ (0b111 : BitVec 3)] [.pci] 5 ∧
    Form (.rfc c) [(0b000 : BitVec 3) ++ c.code ++ (0b011 : BitVec 3)] [.pci] 5 ∧
    Form (.rtc c) [(0b001 : BitVec 3) ++ c.code ++ (0b011 : BitVec 3)] [.pci] 5 ∧
    instrStates (.rfc c) false = 3 ∧ instrStates (.rtc c) false = 3 ∧
    exec .ret s = .next (returned s) ∧
    exec (.rfc c) s = .next (if flagNamed s.flags c = false then returned s else s) ∧
    exec (.rtc c) s = .next (if flagNamed s.flags c = true then returned s else s) ∧
    (returned s).pc = stackGet s.stack (s.sp - 1)

/-- DERIVED from 43_control_transfer.md R180 and 30_encoding.md R88: RST is a one-byte call of 8 *
AAA. That no flag is written is the spec's decision D6 (log 4). -/
def Obligations.RestartCallsEightTimesAaa : Prop :=
  ∀ (aaa : BitVec 3) (s : State),
    Form (.rst aaa) [(0b00 : BitVec 2) ++ aaa ++ (0b101 : BitVec 3)] [.pci] 5 ∧
    exec (.rst aaa) s = .next (called s (BitVec.ofNat 14 (8 * aaa.toNat))) ∧
    exec (.rst aaa) s = exec (.cal (BitVec.ofNat 14 (8 * aaa.toNat))) s

/-! ### Input, output, halt -/

/-- DERIVED from 44_input_output.md R191: A takes the byte the device drives; the old A is shown at
T1, the opcode at T2, the flags at T4; no flag is written (D6, log 4). Which byte that is comes from
the environment (log 13). -/
def Obligations.InputLoadsA : Prop :=
  ∀ (port : BitVec 3) (s : State),
    Form (.inp port) [(0b0100 : BitVec 4) ++ port ++ (1 : BitVec 1)] [.pci, .pcc] 8 ∧
    ∃ v, exec (.inp port) s = .next { s with
        regs := { s.regs with a := v }
        inputs := s.inputs.tail
        events := .input port s.regs.a v s.flags :: s.events } ∧
      (∀ x rest, s.inputs = x :: rest → v = x) ∧
      (s.inputs = [] → v = Config.inputByte port s.regs.a s.events.length) ∧
      (BusEvent.input port s.regs.a v s.flags).pins =
        ⟨false, .pcc, s.regs.a, (0b0100 : BitVec 4) ++ port ++ (1 : BitVec 1), .taken v,
          some (BitVec.ofBool s.flags.c ++ BitVec.ofBool s.flags.p ++ BitVec.ofBool s.flags.z ++
            BitVec.ofBool s.flags.s)⟩

/-- DERIVED from 44_input_output.md R192: A and the opcode are shown to the device 8 to 31; nothing
but the history changes (no flag by D6, log 4). -/
def Obligations.OutputShowsA : Prop :=
  ∀ (port : BitVec 5) (s : State), 8 ≤ port.toNat →
    Form (.out port) [(0b01 : BitVec 2) ++ port ++ (1 : BitVec 1)] [.pci, .pcc] 6 ∧
    exec (.out port) s = .next { s with events := .output port s.regs.a :: s.events } ∧
    (BusEvent.output port s.regs.a).pins =
      ⟨false, .pcc, s.regs.a, (0b01 : BitVec 2) ++ port ++ (1 : BitVec 1), .idle, none⟩

/-- DERIVED from 45_machine.md R200: HLT, in all three encodings, changes the run state and nothing
else (no flag by D6, log 4). -/
def Obligations.HaltStops : Prop :=
  Form .hlt [0x00] [.pci] 4 ∧ Form .hlt [0x01] [.pci] 4 ∧ Form .hltFF [0xFF] [.pci] 4 ∧
  ∀ s : State, exec .hlt s = .next { s with run := .stopped } ∧
    exec .hltFF s = .next { s with run := .stopped }

/-! ### The SIM8-01 board -/

/-- DERIVED from 60_exceptions.md R237 and R238 (log 28): a request sets the latch, but for one that
box B loses; with a latched request the board's step takes the interrupt with the byte of its
instruction port and operand bytes from memory and resets the latch, unless the jumper holds it back
because the processor runs; then the latch stays and the instruction at PC runs. Whether box B loses
or keeps a request it holds back is open in the model (log 31); what an INP finds on the input ports
rests on log 32 and 34. -/
def Obligations.BoardInterruptLatch : Prop :=
  ∀ b : Sim801,
    (b.boxB = .beforeLatch ∧ b.stoppedOnly = true ∧ b.cpu.run = .running → b.request = b) ∧
    (b.boxB = .afterLatch ∨ b.stoppedOnly = false ∨ b.cpu.run = .stopped →
      b.request = { b with intLatch := true }) ∧
    (b.intLatch = true → b.stoppedOnly = false ∨ b.cpu.run = .stopped →
      ∀ operands i,
        JamBrings b.cpu ⟨.supplied b.intPort, .memoryAtPc, .memoryAtPc⟩ b.intPort operands →
        decode (b.intPort :: operands) = .ok (i, []) →
        ∀ t, exec i (jammed (boardCpu b i) b.intPort operands) = .next t →
          b.step = .next { b with cpu := t, intLatch := false }) ∧
    (b.intLatch = false ∨ b.stoppedOnly = true → b.cpu.run = .running →
      ∀ v operands i, FetchBrings b.cpu v operands → decode (v :: operands) = .ok (i, []) →
        ∀ t, exec i (fetched (boardCpu b i) v operands) = .next t →
          b.step = .next { b with cpu := t }) ∧
    (b.intLatch = false → b.cpu.run = .stopped →
      b.step = .next { b with cpu := { b.cpu with intSource := [], inputs := [] } })

/-- DERIVED from 60_exceptions.md R236 and R239 (log 28): the pins of a fitted output port carry the
complement of the last byte sent to it, before the first one of what its latch came up with, and
change with no other instruction; the flag latch takes the flags of an INP and changes with no other
instruction. That added ports complement too is the model's choice (log 34). -/
def Obligations.BoardOutputsComplement : Prop :=
  ∀ (b : Sim801) (n : Fin 24),
    (n.val < 4 + b.addedOutputs → b.cpu.outputs = [] →
      b.outputPins n = some (~~~b.outputPowerUp[n])) ∧
    (4 + b.addedOutputs ≤ n.val → b.outputPins n = none) ∧
    ∀ (i : Instr) (t : State), exec i b.cpu = .next t →
      (n.val < 4 + b.addedOutputs → Sim801.outputPins { b with cpu := t } n =
        if i = .out (BitVec.ofNat 5 (8 + n.val)) then some (~~~b.cpu.regs.a) else b.outputPins n) ∧
      ((∃ port, i = .inp port) → Sim801.flagLatch { b with cpu := t } = b.cpu.flags) ∧
      ((∀ port, i ≠ .inp port) → Sim801.flagLatch { b with cpu := t } = b.flagLatch)

/-- DERIVED from 60_exceptions.md R236 and R239: INP of a fitted port loads A with the data on the
port's lines, as they are, where J1-29 is at +5 V; where it is not, and where no port is fitted, A
takes a free byte (log 32, log 13). The board and its step are the model's (log 28); that ports added
to the board's two take the next numbers and are like them is its choice (log 34). -/
def Obligations.BoardInputPorts : Prop :=
  ∀ (b : Sim801) (port : BitVec 3), b.intLatch = false → b.cpu.run = .running →
    b.cpu.busByte b.cpu.pc = (0b0100 : BitVec 4) ++ port ++ (1 : BitVec 1) →
    ∃ t, b.step = .next { b with cpu := t } ∧
      (port.toNat < 2 + b.addedInputs → b.dataTrue = true →
        t.regs.a = b.inputLines[port.toNat]) ∧
      (2 + b.addedInputs ≤ port.toNat ∨ b.dataTrue = false →
        t.regs.a = Config.inputByte port b.cpu.regs.a (b.cpu.events.length + 1))

/-- DERIVED from 60_exceptions.md R236, R237, R239 and R240 (log 33): a bit of the teletype puts its level on bit
0 of input port 0 and on no other line; the start bit makes a request too, which wakes a STOPPED
processor, and with LAA at the instruction port execution goes on at PC; DATA OUT and READER CONTROL
are bit 0 of the pins of output ports 2 and 3, the complement of bit 0 of the byte sent there (R236,
R239). That bits come between steps of the board and that latches are read off the event history is
the model's choice (log 28). -/
def Obligations.BoardTeletype : Prop :=
  (∀ (b : Sim801) (k : TeletypeBit),
    (b.teletype k).teletypeIn = b.teletypeLevel k ∧
    (∀ j : Fin 8, j ≠ 0 → (b.teletype k).inputLines[0][j] = b.inputLines[0][j]) ∧
    (∀ p : Fin 8, p ≠ 0 → (b.teletype k).inputLines[p] = b.inputLines[p]) ∧
    (b.teletype k).cpu = b.cpu ∧ (k ≠ .start → (b.teletype k).intLatch = b.intLatch)) ∧
  (∀ b : Sim801, b.teletypeLevel .start ≠ b.teletypeLevel .idle) ∧
  (∀ b : Sim801, b.cpu.run = .stopped → b.intPort = 0xC0 →
    ∃ c, (b.teletype .start).step = .next c ∧ c.cpu.run = .running ∧ c.cpu.pc = b.cpu.pc ∧
      c.cpu.regs = b.cpu.regs ∧ c.cpu.flags = b.cpu.flags ∧ c.intLatch = false) ∧
  ∀ b : Sim801,
    (∃ t, exec (.out 10) b.cpu = .next t ∧
      Sim801.teletypeOut { b with cpu := t } = !b.cpu.regs.a[0]) ∧
    ∃ t, exec (.out 11) b.cpu = .next t ∧
      Sim801.readerControl { b with cpu := t } = !b.cpu.regs.a[0]

/-! ### What a STOPPED processor shows -/

/-- DERIVED from 45_machine.md R200 and 20_memory.md R52, R75: S0 S1 S2 show STOPPED, 110, exactly
while the processor is STOPPED and no interrupt is requested, from the HLT on, and the bus floats
then and in WAIT, in whatever cycle. A requested interrupt shows as T1I, 011, with the low half of
PC on the bus. -/
def Obligations.StoppedIsShown : Prop :=
  (∀ s : State, s.lines = 0b110 ↔ s.run = .stopped ∧ NoRequest s) ∧
  (∀ s : State, s.run = .stopped → NoRequest s → s.shown.2 = .floating) ∧
  (∀ s t : State, exec .hlt s = .next t ∨ exec .hltFF s = .next t → NoRequest t →
    t.lines = 0b110 ∧ t.shown.2 = .floating) ∧
  (∀ (s : State) (j : Jam) (rest : List (Option Jam)), s.intSource = some j :: rest →
    s.lines = 0b011 ∧ s.shown.2 = .driven (s.pc.extractLsb' 0 8)) ∧
  ∀ p : BusPins, p.during .stopped = .floating ∧ p.during .wait = .floating
end

