-- ==== Sys2Proof/Laws/Memory.lean ====
section
/-! SUPPORT. What reading and writing the listed memory do, and that every memory operation keeps
the canonical form. -/

namespace Sys2Proof.Machine

/-- Lowering the bound keeps the form. -/
theorem Memory.wfFrom_mono {lo hi : Nat} {m : Memory} (h : lo ≤ hi) (w : Memory.wfFrom hi m = true) :
    Memory.wfFrom lo m = true := by
  cases m with
  | nil => rfl
  | cons c rest =>
    simp only [Memory.wfFrom, Bool.and_eq_true, decide_eq_true_eq] at w ⊢
    exact ⟨⟨⟨le_trans h w.1.1.1, w.1.1.2⟩, w.1.2⟩, w.2⟩

/-- Below its bound a canonical memory lists nothing. -/
theorem Memory.read_below {lo a : Nat} {m : Memory} (w : Memory.wfFrom lo m = true) (h : a < lo) :
    m.read a = Config.unlistedByte := by
  induction m generalizing lo with
  | nil => rfl
  | cons c rest ih =>
    obtain ⟨k, v⟩ := c
    simp only [Memory.wfFrom, Bool.and_eq_true, decide_eq_true_eq] at w
    have hk : k ≠ a := by omega
    simp only [Memory.read, if_neg hk]
    exact ih w.2 (by omega)

/-- A write keeps the canonical form, for an address inside the memory space. -/
theorem Memory.wfFrom_write {lo a : Nat} {m : Memory} {v : Byte} (w : Memory.wfFrom lo m = true)
    (hlo : lo ≤ a) (ha : a < Config.memorySize) : Memory.wfFrom lo (m.write a v) = true := by
  induction m generalizing lo with
  | nil =>
    simp only [Memory.write]
    split
    · rfl
    · simp [Memory.wfFrom, *]
  | cons c rest ih =>
    obtain ⟨k, x⟩ := c
    simp only [Memory.wfFrom, Bool.and_eq_true, decide_eq_true_eq] at w
    obtain ⟨⟨⟨hk1, hk2⟩, hx⟩, hr⟩ := w
    simp only [Memory.write]
    split
    · next h =>
      split
      · simp [Memory.wfFrom, hk1, hk2, hx, hr]
      · simp [Memory.wfFrom, *]
    · next h =>
      split
      · next e =>
        split
        · exact Memory.wfFrom_mono (by omega) hr
        · subst e
          simp [Memory.wfFrom, *]
      · next e =>
        simp only [Memory.wfFrom, Bool.and_eq_true, decide_eq_true_eq]
        exact ⟨⟨⟨hk1, hk2⟩, hx⟩, ih hr (by omega)⟩

/-- A write keeps the canonical form. -/
theorem Memory.wf_write {a : Nat} {m : Memory} {v : Byte} (w : m.wf = true)
    (ha : a < Config.memorySize) : (m.write a v).wf = true :=
  Memory.wfFrom_write w (Nat.zero_le a) ha

/-- Reading another address after a write gives what it gave before. -/
theorem Memory.read_write_other {a b : Nat} {m : Memory} {v : Byte} (h : b ≠ a) :
    (m.write a v).read b = m.read b := by
  induction m with
  | nil =>
    simp only [Memory.write]
    split
    · rfl
    · simp [Memory.read, Ne.symm h]
  | cons c rest ih =>
    obtain ⟨k, x⟩ := c
    simp only [Memory.write]
    split
    · split
      · rfl
      · simp [Memory.read, Ne.symm h]
    · split
      · next e =>
        subst e
        split <;> simp [Memory.read, Ne.symm h]
      · simp only [Memory.read, ih]

/-- Reading the address just written in a canonical memory gives the byte written. -/
theorem Memory.read_write_same_from {lo a : Nat} {m : Memory} {v : Byte}
    (w : Memory.wfFrom lo m = true) : (m.write a v).read a = v := by
  induction m generalizing lo with
  | nil =>
    simp only [Memory.write]
    split
    · next e => simp [Memory.read, e]
    · simp [Memory.read]
  | cons c rest ih =>
    obtain ⟨k, x⟩ := c
    simp only [Memory.wfFrom, Bool.and_eq_true, decide_eq_true_eq] at w
    obtain ⟨_, hr⟩ := w
    simp only [Memory.write]
    split
    · next h =>
      split
      · next e =>
        have hk : k ≠ a := by omega
        simp only [Memory.read, if_neg hk, e]
        exact Memory.read_below hr (by omega)
      · simp [Memory.read]
    · split
      · next e =>
        split
        · next e2 =>
          rw [e2]
          exact Memory.read_below hr (by omega)
        · simp [Memory.read]
      · next e =>
        have hk : k ≠ a := Ne.symm e
        simp only [Memory.read, if_neg hk]
        exact ih hr

/-- Reading the address just written in a canonical memory gives the byte written. -/
theorem Memory.read_write_same {a : Nat} {m : Memory} {v : Byte} (w : m.wf = true) :
    (m.write a v).read a = v :=
  Memory.read_write_same_from w

/-- Every address of the bus is inside the memory space. -/
theorem addr_lt_memorySize (a : Addr) : a.toNat < Config.memorySize := a.isLt

/-- A write cycle keeps the canonical form, whatever answers at the address. -/
theorem storeInto_wf {kind : MemKind} {m : Memory} {a : Addr} {v : Byte} (w : m.wf = true) :
    (storeInto kind m a.toNat v).wf = true := by
  cases kind
  · exact Memory.wf_write w (addr_lt_memorySize a)
  · exact w
  · exact w

/-- A write cycle leaves every other address alone. -/
theorem storeInto_read_other {kind : MemKind} {m : Memory} {a b : Addr} {v : Byte} (h : b ≠ a) :
    (storeInto kind m a.toNat v).read b.toNat = m.read b.toNat := by
  have hn : b.toNat ≠ a.toNat := fun e => h (BitVec.eq_of_toNat_eq e)
  cases kind
  · exact Memory.read_write_other hn
  · rfl
  · rfl

/-- A write cycle to RAM puts the byte there; ROM and nothing keep what they hold. -/
theorem storeInto_read_same {kind : MemKind} {m : Memory} {a : Nat} {v : Byte} (w : m.wf = true) :
    (storeInto kind m a v).read a = if kind = .ram then v else m.read a := by
  cases kind
  · simpa [storeInto] using Memory.read_write_same w
  · simp [storeInto]
  · simp [storeInto]

end Sys2Proof.Machine
end

