-- ==== Sys2Proof/Laws/State.lean ====
section
/-! SUPPORT. One lemma per field per update of the state, each true by rfl, so that no proof unfolds
a record update. -/

namespace Sys2Proof.Machine

variable (s : State)

/-! writeReg -/

@[simp] theorem writeReg_regs (r : Reg) (v : Byte) : (s.writeReg r v).regs = s.regs.set r v := rfl
@[simp] theorem writeReg_flags (r : Reg) (v : Byte) : (s.writeReg r v).flags = s.flags := rfl
@[simp] theorem writeReg_stack (r : Reg) (v : Byte) : (s.writeReg r v).stack = s.stack := rfl
@[simp] theorem writeReg_sp (r : Reg) (v : Byte) : (s.writeReg r v).sp = s.sp := rfl
@[simp] theorem writeReg_run (r : Reg) (v : Byte) : (s.writeReg r v).run = s.run := rfl
@[simp] theorem writeReg_ir (r : Reg) (v : Byte) : (s.writeReg r v).ir = s.ir := rfl
@[simp] theorem writeReg_irOrigin (r : Reg) (v : Byte) :
    (s.writeReg r v).irOrigin = s.irOrigin := rfl
@[simp] theorem writeReg_powerUpFF (r : Reg) (v : Byte) :
    (s.writeReg r v).powerUpFF = s.powerUpFF := rfl
@[simp] theorem writeReg_mem (r : Reg) (v : Byte) : (s.writeReg r v).mem = s.mem := rfl
@[simp] theorem writeReg_memMap (r : Reg) (v : Byte) : (s.writeReg r v).memMap = s.memMap := rfl
@[simp] theorem writeReg_events (r : Reg) (v : Byte) : (s.writeReg r v).events = s.events := rfl
@[simp] theorem writeReg_intSource (r : Reg) (v : Byte) :
    (s.writeReg r v).intSource = s.intSource := rfl
@[simp] theorem writeReg_inputs (r : Reg) (v : Byte) : (s.writeReg r v).inputs = s.inputs := rfl
@[simp] theorem writeReg_pc (r : Reg) (v : Byte) : (s.writeReg r v).pc = s.pc := rfl
@[simp] theorem writeReg_position (r : Reg) (v : Byte) : (s.writeReg r v).position = s.position := rfl
@[simp] theorem writeReg_kindAt (r : Reg) (v : Byte) (x : Addr) : (s.writeReg r v).kindAt x = s.kindAt x := rfl
@[simp] theorem writeReg_memByte (r : Reg) (v : Byte) (x : Addr) : (s.writeReg r v).memByte x = s.memByte x := rfl

/-! setFlags -/

@[simp] theorem setFlags_regs (f : Flags) : (s.setFlags f).regs = s.regs := rfl
@[simp] theorem setFlags_flags (f : Flags) : (s.setFlags f).flags = f := rfl
@[simp] theorem setFlags_stack (f : Flags) : (s.setFlags f).stack = s.stack := rfl
@[simp] theorem setFlags_sp (f : Flags) : (s.setFlags f).sp = s.sp := rfl
@[simp] theorem setFlags_run (f : Flags) : (s.setFlags f).run = s.run := rfl
@[simp] theorem setFlags_ir (f : Flags) : (s.setFlags f).ir = s.ir := rfl
@[simp] theorem setFlags_irOrigin (f : Flags) : (s.setFlags f).irOrigin = s.irOrigin := rfl
@[simp] theorem setFlags_powerUpFF (f : Flags) : (s.setFlags f).powerUpFF = s.powerUpFF := rfl
@[simp] theorem setFlags_mem (f : Flags) : (s.setFlags f).mem = s.mem := rfl
@[simp] theorem setFlags_memMap (f : Flags) : (s.setFlags f).memMap = s.memMap := rfl
@[simp] theorem setFlags_events (f : Flags) : (s.setFlags f).events = s.events := rfl
@[simp] theorem setFlags_intSource (f : Flags) : (s.setFlags f).intSource = s.intSource := rfl
@[simp] theorem setFlags_inputs (f : Flags) : (s.setFlags f).inputs = s.inputs := rfl
@[simp] theorem setFlags_acc (f : Flags) : (s.setFlags f).acc = s.acc := rfl
@[simp] theorem setFlags_hl (f : Flags) : (s.setFlags f).hl = s.hl := rfl
@[simp] theorem setFlags_pc (f : Flags) : (s.setFlags f).pc = s.pc := rfl
@[simp] theorem setFlags_position (f : Flags) : (s.setFlags f).position = s.position := rfl
@[simp] theorem setFlags_readReg (f : Flags) (q : Reg) : (s.setFlags f).readReg q = s.readReg q := rfl
@[simp] theorem setFlags_kindAt (f : Flags) (x : Addr) : (s.setFlags f).kindAt x = s.kindAt x := rfl
@[simp] theorem setFlags_memByte (f : Flags) (x : Addr) : (s.setFlags f).memByte x = s.memByte x := rfl

/-! setPc -/

@[simp] theorem setPc_regs (a : Addr) : (s.setPc a).regs = s.regs := rfl
@[simp] theorem setPc_flags (a : Addr) : (s.setPc a).flags = s.flags := rfl
@[simp] theorem setPc_stack (a : Addr) : (s.setPc a).stack = stackSet s.stack s.sp a := rfl
@[simp] theorem setPc_sp (a : Addr) : (s.setPc a).sp = s.sp := rfl
@[simp] theorem setPc_run (a : Addr) : (s.setPc a).run = s.run := rfl
@[simp] theorem setPc_ir (a : Addr) : (s.setPc a).ir = s.ir := rfl
@[simp] theorem setPc_irOrigin (a : Addr) : (s.setPc a).irOrigin = s.irOrigin := rfl
@[simp] theorem setPc_powerUpFF (a : Addr) : (s.setPc a).powerUpFF = s.powerUpFF := rfl
@[simp] theorem setPc_mem (a : Addr) : (s.setPc a).mem = s.mem := rfl
@[simp] theorem setPc_memMap (a : Addr) : (s.setPc a).memMap = s.memMap := rfl
@[simp] theorem setPc_events (a : Addr) : (s.setPc a).events = s.events := rfl
@[simp] theorem setPc_intSource (a : Addr) : (s.setPc a).intSource = s.intSource := rfl
@[simp] theorem setPc_inputs (a : Addr) : (s.setPc a).inputs = s.inputs := rfl
@[simp] theorem setPc_acc (a : Addr) : (s.setPc a).acc = s.acc := rfl
@[simp] theorem setPc_hl (a : Addr) : (s.setPc a).hl = s.hl := rfl
@[simp] theorem setPc_position (a : Addr) : (s.setPc a).position = s.position := rfl
@[simp] theorem setPc_readReg (a : Addr) (q : Reg) : (s.setPc a).readReg q = s.readReg q := rfl
@[simp] theorem setPc_kindAt (a : Addr) (x : Addr) : (s.setPc a).kindAt x = s.kindAt x := rfl
@[simp] theorem setPc_memByte (a : Addr) (x : Addr) : (s.setPc a).memByte x = s.memByte x := rfl

/-! record -/

@[simp] theorem record_regs (e : BusEvent) : (s.record e).regs = s.regs := rfl
@[simp] theorem record_flags (e : BusEvent) : (s.record e).flags = s.flags := rfl
@[simp] theorem record_stack (e : BusEvent) : (s.record e).stack = s.stack := rfl
@[simp] theorem record_sp (e : BusEvent) : (s.record e).sp = s.sp := rfl
@[simp] theorem record_run (e : BusEvent) : (s.record e).run = s.run := rfl
@[simp] theorem record_ir (e : BusEvent) : (s.record e).ir = s.ir := rfl
@[simp] theorem record_irOrigin (e : BusEvent) : (s.record e).irOrigin = s.irOrigin := rfl
@[simp] theorem record_powerUpFF (e : BusEvent) : (s.record e).powerUpFF = s.powerUpFF := rfl
@[simp] theorem record_mem (e : BusEvent) : (s.record e).mem = s.mem := rfl
@[simp] theorem record_memMap (e : BusEvent) : (s.record e).memMap = s.memMap := rfl
@[simp] theorem record_events (e : BusEvent) : (s.record e).events = e :: s.events := rfl
@[simp] theorem record_intSource (e : BusEvent) : (s.record e).intSource = s.intSource := rfl
@[simp] theorem record_inputs (e : BusEvent) : (s.record e).inputs = s.inputs := rfl
@[simp] theorem record_acc (e : BusEvent) : (s.record e).acc = s.acc := rfl
@[simp] theorem record_hl (e : BusEvent) : (s.record e).hl = s.hl := rfl
@[simp] theorem record_pc (e : BusEvent) : (s.record e).pc = s.pc := rfl
@[simp] theorem record_readReg (e : BusEvent) (q : Reg) : (s.record e).readReg q = s.readReg q := rfl
@[simp] theorem record_kindAt (e : BusEvent) (x : Addr) : (s.record e).kindAt x = s.kindAt x := rfl
@[simp] theorem record_memByte (e : BusEvent) (x : Addr) : (s.record e).memByte x = s.memByte x := rfl

/-! storeByte -/

@[simp] theorem storeByte_regs (a : Addr) (v : Byte) : (s.storeByte a v).regs = s.regs := rfl
@[simp] theorem storeByte_flags (a : Addr) (v : Byte) : (s.storeByte a v).flags = s.flags := rfl
@[simp] theorem storeByte_stack (a : Addr) (v : Byte) : (s.storeByte a v).stack = s.stack := rfl
@[simp] theorem storeByte_sp (a : Addr) (v : Byte) : (s.storeByte a v).sp = s.sp := rfl
@[simp] theorem storeByte_run (a : Addr) (v : Byte) : (s.storeByte a v).run = s.run := rfl
@[simp] theorem storeByte_ir (a : Addr) (v : Byte) : (s.storeByte a v).ir = s.ir := rfl
@[simp] theorem storeByte_irOrigin (a : Addr) (v : Byte) :
    (s.storeByte a v).irOrigin = s.irOrigin := rfl
@[simp] theorem storeByte_powerUpFF (a : Addr) (v : Byte) :
    (s.storeByte a v).powerUpFF = s.powerUpFF := rfl
@[simp] theorem storeByte_mem (a : Addr) (v : Byte) :
    (s.storeByte a v).mem = storeInto (s.kindAt a) s.mem a.toNat v := rfl
@[simp] theorem storeByte_memMap (a : Addr) (v : Byte) : (s.storeByte a v).memMap = s.memMap := rfl
@[simp] theorem storeByte_events (a : Addr) (v : Byte) : (s.storeByte a v).events = s.events := rfl
@[simp] theorem storeByte_intSource (a : Addr) (v : Byte) :
    (s.storeByte a v).intSource = s.intSource := rfl
@[simp] theorem storeByte_inputs (a : Addr) (v : Byte) : (s.storeByte a v).inputs = s.inputs := rfl
@[simp] theorem storeByte_acc (a : Addr) (v : Byte) : (s.storeByte a v).acc = s.acc := rfl
@[simp] theorem storeByte_hl (a : Addr) (v : Byte) : (s.storeByte a v).hl = s.hl := rfl
@[simp] theorem storeByte_pc (a : Addr) (v : Byte) : (s.storeByte a v).pc = s.pc := rfl
@[simp] theorem storeByte_position (a : Addr) (v : Byte) : (s.storeByte a v).position = s.position := rfl
@[simp] theorem storeByte_readReg (a : Addr) (v : Byte) (q : Reg) : (s.storeByte a v).readReg q = s.readReg q := rfl
@[simp] theorem storeByte_kindAt (a : Addr) (v : Byte) (x : Addr) : (s.storeByte a v).kindAt x = s.kindAt x := rfl

/-! writeM -/

@[simp] theorem writeM_regs (v : Byte) : (s.writeM v).regs = s.regs := rfl
@[simp] theorem writeM_flags (v : Byte) : (s.writeM v).flags = s.flags := rfl
@[simp] theorem writeM_stack (v : Byte) : (s.writeM v).stack = s.stack := rfl
@[simp] theorem writeM_sp (v : Byte) : (s.writeM v).sp = s.sp := rfl
@[simp] theorem writeM_run (v : Byte) : (s.writeM v).run = s.run := rfl
@[simp] theorem writeM_ir (v : Byte) : (s.writeM v).ir = s.ir := rfl
@[simp] theorem writeM_irOrigin (v : Byte) : (s.writeM v).irOrigin = s.irOrigin := rfl
@[simp] theorem writeM_powerUpFF (v : Byte) : (s.writeM v).powerUpFF = s.powerUpFF := rfl
@[simp] theorem writeM_mem (v : Byte) :
    (s.writeM v).mem = storeInto (s.kindAt s.hl) s.mem s.hl.toNat v := rfl
@[simp] theorem writeM_memMap (v : Byte) : (s.writeM v).memMap = s.memMap := rfl
@[simp] theorem writeM_events (v : Byte) : (s.writeM v).events = .memWrite s.hl v :: s.events := rfl
@[simp] theorem writeM_intSource (v : Byte) : (s.writeM v).intSource = s.intSource := rfl
@[simp] theorem writeM_inputs (v : Byte) : (s.writeM v).inputs = s.inputs := rfl
@[simp] theorem writeM_acc (v : Byte) : (s.writeM v).acc = s.acc := rfl
@[simp] theorem writeM_hl (v : Byte) : (s.writeM v).hl = s.hl := rfl
@[simp] theorem writeM_pc (v : Byte) : (s.writeM v).pc = s.pc := rfl
@[simp] theorem writeM_readReg (v : Byte) (q : Reg) : (s.writeM v).readReg q = s.readReg q := rfl
@[simp] theorem writeM_kindAt (v : Byte) (x : Addr) : (s.writeM v).kindAt x = s.kindAt x := rfl

/-! readM -/

@[simp] theorem readM_regs : (s.readM.2).regs = s.regs := rfl
@[simp] theorem readM_flags : (s.readM.2).flags = s.flags := rfl
@[simp] theorem readM_stack : (s.readM.2).stack = s.stack := rfl
@[simp] theorem readM_sp : (s.readM.2).sp = s.sp := rfl
@[simp] theorem readM_run : (s.readM.2).run = s.run := rfl
@[simp] theorem readM_ir : (s.readM.2).ir = s.ir := rfl
@[simp] theorem readM_irOrigin : (s.readM.2).irOrigin = s.irOrigin := rfl
@[simp] theorem readM_powerUpFF : (s.readM.2).powerUpFF = s.powerUpFF := rfl
@[simp] theorem readM_mem : (s.readM.2).mem = s.mem := rfl
@[simp] theorem readM_memMap : (s.readM.2).memMap = s.memMap := rfl
@[simp] theorem readM_events :
    (s.readM.2).events = .memRead s.hl (s.busByte s.hl) :: s.events := rfl
@[simp] theorem readM_intSource : (s.readM.2).intSource = s.intSource := rfl
@[simp] theorem readM_inputs : (s.readM.2).inputs = s.inputs := rfl
@[simp] theorem readM_acc : (s.readM.2).acc = s.acc := rfl
@[simp] theorem readM_hl : (s.readM.2).hl = s.hl := rfl
@[simp] theorem readM_pc : (s.readM.2).pc = s.pc := rfl
@[simp] theorem readM_readReg (q : Reg) : (s.readM.2).readReg q = s.readReg q := rfl
@[simp] theorem readM_kindAt (x : Addr) : (s.readM.2).kindAt x = s.kindAt x := rfl
@[simp] theorem readM_memByte (x : Addr) : (s.readM.2).memByte x = s.memByte x := rfl

/-! ioIn -/

@[simp] theorem ioIn_regs (port : BitVec 3) : ((s.ioIn port).2).regs = s.regs := rfl
@[simp] theorem ioIn_flags (port : BitVec 3) : ((s.ioIn port).2).flags = s.flags := rfl
@[simp] theorem ioIn_stack (port : BitVec 3) : ((s.ioIn port).2).stack = s.stack := rfl
@[simp] theorem ioIn_sp (port : BitVec 3) : ((s.ioIn port).2).sp = s.sp := rfl
@[simp] theorem ioIn_run (port : BitVec 3) : ((s.ioIn port).2).run = s.run := rfl
@[simp] theorem ioIn_ir (port : BitVec 3) : ((s.ioIn port).2).ir = s.ir := rfl
@[simp] theorem ioIn_irOrigin (port : BitVec 3) : ((s.ioIn port).2).irOrigin = s.irOrigin := rfl
@[simp] theorem ioIn_powerUpFF (port : BitVec 3) : ((s.ioIn port).2).powerUpFF = s.powerUpFF := rfl
@[simp] theorem ioIn_mem (port : BitVec 3) : ((s.ioIn port).2).mem = s.mem := rfl
@[simp] theorem ioIn_memMap (port : BitVec 3) : ((s.ioIn port).2).memMap = s.memMap := rfl
@[simp] theorem ioIn_events (port : BitVec 3) :
    ((s.ioIn port).2).events = .input port s.acc (s.inputData port) s.flags :: s.events := rfl
@[simp] theorem ioIn_intSource (port : BitVec 3) : ((s.ioIn port).2).intSource = s.intSource := rfl
@[simp] theorem ioIn_inputs (port : BitVec 3) : ((s.ioIn port).2).inputs = s.inputs.tail := rfl
@[simp] theorem ioIn_acc (port : BitVec 3) : ((s.ioIn port).2).acc = s.acc := rfl
@[simp] theorem ioIn_hl (port : BitVec 3) : ((s.ioIn port).2).hl = s.hl := rfl
@[simp] theorem ioIn_pc (port : BitVec 3) : ((s.ioIn port).2).pc = s.pc := rfl
@[simp] theorem ioIn_readReg (port : BitVec 3) (q : Reg) : ((s.ioIn port).2).readReg q = s.readReg q := rfl
@[simp] theorem ioIn_kindAt (port : BitVec 3) (x : Addr) : ((s.ioIn port).2).kindAt x = s.kindAt x := rfl
@[simp] theorem ioIn_memByte (port : BitVec 3) (x : Addr) : ((s.ioIn port).2).memByte x = s.memByte x := rfl

/-! ioOut -/

@[simp] theorem ioOut_regs (port : BitVec 5) : (s.ioOut port).regs = s.regs := rfl
@[simp] theorem ioOut_flags (port : BitVec 5) : (s.ioOut port).flags = s.flags := rfl
@[simp] theorem ioOut_stack (port : BitVec 5) : (s.ioOut port).stack = s.stack := rfl
@[simp] theorem ioOut_sp (port : BitVec 5) : (s.ioOut port).sp = s.sp := rfl
@[simp] theorem ioOut_run (port : BitVec 5) : (s.ioOut port).run = s.run := rfl
@[simp] theorem ioOut_ir (port : BitVec 5) : (s.ioOut port).ir = s.ir := rfl
@[simp] theorem ioOut_irOrigin (port : BitVec 5) : (s.ioOut port).irOrigin = s.irOrigin := rfl
@[simp] theorem ioOut_powerUpFF (port : BitVec 5) : (s.ioOut port).powerUpFF = s.powerUpFF := rfl
@[simp] theorem ioOut_mem (port : BitVec 5) : (s.ioOut port).mem = s.mem := rfl
@[simp] theorem ioOut_memMap (port : BitVec 5) : (s.ioOut port).memMap = s.memMap := rfl
@[simp] theorem ioOut_events (port : BitVec 5) :
    (s.ioOut port).events = .output port s.acc :: s.events := rfl
@[simp] theorem ioOut_intSource (port : BitVec 5) : (s.ioOut port).intSource = s.intSource := rfl
@[simp] theorem ioOut_inputs (port : BitVec 5) : (s.ioOut port).inputs = s.inputs := rfl
@[simp] theorem ioOut_acc (port : BitVec 5) : (s.ioOut port).acc = s.acc := rfl
@[simp] theorem ioOut_hl (port : BitVec 5) : (s.ioOut port).hl = s.hl := rfl
@[simp] theorem ioOut_pc (port : BitVec 5) : (s.ioOut port).pc = s.pc := rfl
@[simp] theorem ioOut_readReg (port : BitVec 5) (q : Reg) : (s.ioOut port).readReg q = s.readReg q := rfl
@[simp] theorem ioOut_kindAt (port : BitVec 5) (x : Addr) : (s.ioOut port).kindAt x = s.kindAt x := rfl
@[simp] theorem ioOut_memByte (port : BitVec 5) (x : Addr) : (s.ioOut port).memByte x = s.memByte x := rfl

/-! push -/

@[simp] theorem push_regs (t : Addr) : (s.push t).regs = s.regs := rfl
@[simp] theorem push_flags (t : Addr) : (s.push t).flags = s.flags := rfl
@[simp] theorem push_stack (t : Addr) : (s.push t).stack = stackSet s.stack (s.sp + 1) t := rfl
@[simp] theorem push_sp (t : Addr) : (s.push t).sp = s.sp + 1 := rfl
@[simp] theorem push_run (t : Addr) : (s.push t).run = s.run := rfl
@[simp] theorem push_ir (t : Addr) : (s.push t).ir = s.ir := rfl
@[simp] theorem push_irOrigin (t : Addr) : (s.push t).irOrigin = s.irOrigin := rfl
@[simp] theorem push_powerUpFF (t : Addr) : (s.push t).powerUpFF = s.powerUpFF := rfl
@[simp] theorem push_mem (t : Addr) : (s.push t).mem = s.mem := rfl
@[simp] theorem push_memMap (t : Addr) : (s.push t).memMap = s.memMap := rfl
@[simp] theorem push_events (t : Addr) : (s.push t).events = s.events := rfl
@[simp] theorem push_intSource (t : Addr) : (s.push t).intSource = s.intSource := rfl
@[simp] theorem push_inputs (t : Addr) : (s.push t).inputs = s.inputs := rfl
@[simp] theorem push_acc (t : Addr) : (s.push t).acc = s.acc := rfl
@[simp] theorem push_hl (t : Addr) : (s.push t).hl = s.hl := rfl
@[simp] theorem push_position (t : Addr) : (s.push t).position = s.position := rfl
@[simp] theorem push_readReg (t : Addr) (q : Reg) : (s.push t).readReg q = s.readReg q := rfl
@[simp] theorem push_kindAt (t : Addr) (x : Addr) : (s.push t).kindAt x = s.kindAt x := rfl
@[simp] theorem push_memByte (t : Addr) (x : Addr) : (s.push t).memByte x = s.memByte x := rfl

/-! pop -/

@[simp] theorem pop_regs : (s.pop).regs = s.regs := rfl
@[simp] theorem pop_flags : (s.pop).flags = s.flags := rfl
@[simp] theorem pop_stack : (s.pop).stack = s.stack := rfl
@[simp] theorem pop_sp : (s.pop).sp = s.sp - 1 := rfl
@[simp] theorem pop_run : (s.pop).run = s.run := rfl
@[simp] theorem pop_ir : (s.pop).ir = s.ir := rfl
@[simp] theorem pop_irOrigin : (s.pop).irOrigin = s.irOrigin := rfl
@[simp] theorem pop_powerUpFF : (s.pop).powerUpFF = s.powerUpFF := rfl
@[simp] theorem pop_mem : (s.pop).mem = s.mem := rfl
@[simp] theorem pop_memMap : (s.pop).memMap = s.memMap := rfl
@[simp] theorem pop_events : (s.pop).events = s.events := rfl
@[simp] theorem pop_intSource : (s.pop).intSource = s.intSource := rfl
@[simp] theorem pop_inputs : (s.pop).inputs = s.inputs := rfl
@[simp] theorem pop_acc : (s.pop).acc = s.acc := rfl
@[simp] theorem pop_hl : (s.pop).hl = s.hl := rfl
@[simp] theorem pop_position : (s.pop).position = s.position := rfl
@[simp] theorem pop_readReg (q : Reg) : (s.pop).readReg q = s.readReg q := rfl
@[simp] theorem pop_kindAt (x : Addr) : (s.pop).kindAt x = s.kindAt x := rfl
@[simp] theorem pop_memByte (x : Addr) : (s.pop).memByte x = s.memByte x := rfl

/-! halt -/

@[simp] theorem halt_regs : (s.halt).regs = s.regs := rfl
@[simp] theorem halt_flags : (s.halt).flags = s.flags := rfl
@[simp] theorem halt_stack : (s.halt).stack = s.stack := rfl
@[simp] theorem halt_sp : (s.halt).sp = s.sp := rfl
@[simp] theorem halt_run : (s.halt).run = .stopped := rfl
@[simp] theorem halt_ir : (s.halt).ir = s.ir := rfl
@[simp] theorem halt_irOrigin : (s.halt).irOrigin = s.irOrigin := rfl
@[simp] theorem halt_powerUpFF : (s.halt).powerUpFF = s.powerUpFF := rfl
@[simp] theorem halt_mem : (s.halt).mem = s.mem := rfl
@[simp] theorem halt_memMap : (s.halt).memMap = s.memMap := rfl
@[simp] theorem halt_events : (s.halt).events = s.events := rfl
@[simp] theorem halt_intSource : (s.halt).intSource = s.intSource := rfl
@[simp] theorem halt_inputs : (s.halt).inputs = s.inputs := rfl
@[simp] theorem halt_acc : (s.halt).acc = s.acc := rfl
@[simp] theorem halt_hl : (s.halt).hl = s.hl := rfl
@[simp] theorem halt_pc : (s.halt).pc = s.pc := rfl
@[simp] theorem halt_position : (s.halt).position = s.position := rfl
@[simp] theorem halt_readReg (q : Reg) : (s.halt).readReg q = s.readReg q := rfl
@[simp] theorem halt_kindAt (x : Addr) : (s.halt).kindAt x = s.kindAt x := rfl
@[simp] theorem halt_memByte (x : Addr) : (s.halt).memByte x = s.memByte x := rfl

/-! accumulate -/

@[simp] theorem accumulate_regs (o : AluOut) : (s.accumulate o).regs = s.regs.set .a o.value := rfl
@[simp] theorem accumulate_flags (o : AluOut) : (s.accumulate o).flags = o.flags := rfl
@[simp] theorem accumulate_stack (o : AluOut) : (s.accumulate o).stack = s.stack := rfl
@[simp] theorem accumulate_sp (o : AluOut) : (s.accumulate o).sp = s.sp := rfl
@[simp] theorem accumulate_run (o : AluOut) : (s.accumulate o).run = s.run := rfl
@[simp] theorem accumulate_ir (o : AluOut) : (s.accumulate o).ir = s.ir := rfl
@[simp] theorem accumulate_irOrigin (o : AluOut) : (s.accumulate o).irOrigin = s.irOrigin := rfl
@[simp] theorem accumulate_powerUpFF (o : AluOut) : (s.accumulate o).powerUpFF = s.powerUpFF := rfl
@[simp] theorem accumulate_mem (o : AluOut) : (s.accumulate o).mem = s.mem := rfl
@[simp] theorem accumulate_memMap (o : AluOut) : (s.accumulate o).memMap = s.memMap := rfl
@[simp] theorem accumulate_events (o : AluOut) : (s.accumulate o).events = s.events := rfl
@[simp] theorem accumulate_intSource (o : AluOut) : (s.accumulate o).intSource = s.intSource := rfl
@[simp] theorem accumulate_inputs (o : AluOut) : (s.accumulate o).inputs = s.inputs := rfl
@[simp] theorem accumulate_pc (o : AluOut) : (s.accumulate o).pc = s.pc := rfl
@[simp] theorem accumulate_position (o : AluOut) : (s.accumulate o).position = s.position := rfl
@[simp] theorem accumulate_kindAt (o : AluOut) (x : Addr) : (s.accumulate o).kindAt x = s.kindAt x := rfl
@[simp] theorem accumulate_memByte (o : AluOut) (x : Addr) : (s.accumulate o).memByte x = s.memByte x := rfl

/-! compareWith -/

@[simp] theorem compareWith_regs (o : AluOut) : (s.compareWith o).regs = s.regs := rfl
@[simp] theorem compareWith_flags (o : AluOut) : (s.compareWith o).flags = o.flags := rfl
@[simp] theorem compareWith_stack (o : AluOut) : (s.compareWith o).stack = s.stack := rfl
@[simp] theorem compareWith_sp (o : AluOut) : (s.compareWith o).sp = s.sp := rfl
@[simp] theorem compareWith_run (o : AluOut) : (s.compareWith o).run = s.run := rfl
@[simp] theorem compareWith_ir (o : AluOut) : (s.compareWith o).ir = s.ir := rfl
@[simp] theorem compareWith_irOrigin (o : AluOut) : (s.compareWith o).irOrigin = s.irOrigin := rfl
@[simp] theorem compareWith_powerUpFF (o : AluOut) :
    (s.compareWith o).powerUpFF = s.powerUpFF := rfl
@[simp] theorem compareWith_mem (o : AluOut) : (s.compareWith o).mem = s.mem := rfl
@[simp] theorem compareWith_memMap (o : AluOut) : (s.compareWith o).memMap = s.memMap := rfl
@[simp] theorem compareWith_events (o : AluOut) : (s.compareWith o).events = s.events := rfl
@[simp] theorem compareWith_intSource (o : AluOut) :
    (s.compareWith o).intSource = s.intSource := rfl
@[simp] theorem compareWith_inputs (o : AluOut) : (s.compareWith o).inputs = s.inputs := rfl
@[simp] theorem compareWith_acc (o : AluOut) : (s.compareWith o).acc = s.acc := rfl
@[simp] theorem compareWith_hl (o : AluOut) : (s.compareWith o).hl = s.hl := rfl
@[simp] theorem compareWith_pc (o : AluOut) : (s.compareWith o).pc = s.pc := rfl
@[simp] theorem compareWith_position (o : AluOut) : (s.compareWith o).position = s.position := rfl
@[simp] theorem compareWith_readReg (o : AluOut) (q : Reg) : (s.compareWith o).readReg q = s.readReg q := rfl
@[simp] theorem compareWith_kindAt (o : AluOut) (x : Addr) : (s.compareWith o).kindAt x = s.kindAt x := rfl
@[simp] theorem compareWith_memByte (o : AluOut) (x : Addr) : (s.compareWith o).memByte x = s.memByte x := rfl

/-! countTo -/

@[simp] theorem countTo_regs (r : Reg) (v : Byte) : (s.countTo r v).regs = s.regs.set r v := rfl
@[simp] theorem countTo_flags (r : Reg) (v : Byte) : (s.countTo r v).flags = s.flags.setZSP v := rfl
@[simp] theorem countTo_stack (r : Reg) (v : Byte) : (s.countTo r v).stack = s.stack := rfl
@[simp] theorem countTo_sp (r : Reg) (v : Byte) : (s.countTo r v).sp = s.sp := rfl
@[simp] theorem countTo_run (r : Reg) (v : Byte) : (s.countTo r v).run = s.run := rfl
@[simp] theorem countTo_ir (r : Reg) (v : Byte) : (s.countTo r v).ir = s.ir := rfl
@[simp] theorem countTo_irOrigin (r : Reg) (v : Byte) : (s.countTo r v).irOrigin = s.irOrigin := rfl
@[simp] theorem countTo_powerUpFF (r : Reg) (v : Byte) :
    (s.countTo r v).powerUpFF = s.powerUpFF := rfl
@[simp] theorem countTo_mem (r : Reg) (v : Byte) : (s.countTo r v).mem = s.mem := rfl
@[simp] theorem countTo_memMap (r : Reg) (v : Byte) : (s.countTo r v).memMap = s.memMap := rfl
@[simp] theorem countTo_events (r : Reg) (v : Byte) : (s.countTo r v).events = s.events := rfl
@[simp] theorem countTo_intSource (r : Reg) (v : Byte) :
    (s.countTo r v).intSource = s.intSource := rfl
@[simp] theorem countTo_inputs (r : Reg) (v : Byte) : (s.countTo r v).inputs = s.inputs := rfl
@[simp] theorem countTo_pc (r : Reg) (v : Byte) : (s.countTo r v).pc = s.pc := rfl
@[simp] theorem countTo_position (r : Reg) (v : Byte) : (s.countTo r v).position = s.position := rfl
@[simp] theorem countTo_kindAt (r : Reg) (v : Byte) (x : Addr) : (s.countTo r v).kindAt x = s.kindAt x := rfl
@[simp] theorem countTo_memByte (r : Reg) (v : Byte) (x : Addr) : (s.countTo r v).memByte x = s.memByte x := rfl

/-! rotateTo -/

@[simp] theorem rotateTo_regs (v : Byte) (c : Bool) : (s.rotateTo v c).regs = s.regs.set .a v := rfl
@[simp] theorem rotateTo_flags (v : Byte) (c : Bool) :
    (s.rotateTo v c).flags = { s.flags with c := c } := rfl
@[simp] theorem rotateTo_stack (v : Byte) (c : Bool) : (s.rotateTo v c).stack = s.stack := rfl
@[simp] theorem rotateTo_sp (v : Byte) (c : Bool) : (s.rotateTo v c).sp = s.sp := rfl
@[simp] theorem rotateTo_run (v : Byte) (c : Bool) : (s.rotateTo v c).run = s.run := rfl
@[simp] theorem rotateTo_ir (v : Byte) (c : Bool) : (s.rotateTo v c).ir = s.ir := rfl
@[simp] theorem rotateTo_irOrigin (v : Byte) (c : Bool) :
    (s.rotateTo v c).irOrigin = s.irOrigin := rfl
@[simp] theorem rotateTo_powerUpFF (v : Byte) (c : Bool) :
    (s.rotateTo v c).powerUpFF = s.powerUpFF := rfl
@[simp] theorem rotateTo_mem (v : Byte) (c : Bool) : (s.rotateTo v c).mem = s.mem := rfl
@[simp] theorem rotateTo_memMap (v : Byte) (c : Bool) : (s.rotateTo v c).memMap = s.memMap := rfl
@[simp] theorem rotateTo_events (v : Byte) (c : Bool) : (s.rotateTo v c).events = s.events := rfl
@[simp] theorem rotateTo_intSource (v : Byte) (c : Bool) :
    (s.rotateTo v c).intSource = s.intSource := rfl
@[simp] theorem rotateTo_inputs (v : Byte) (c : Bool) : (s.rotateTo v c).inputs = s.inputs := rfl
@[simp] theorem rotateTo_pc (v : Byte) (c : Bool) : (s.rotateTo v c).pc = s.pc := rfl
@[simp] theorem rotateTo_position (v : Byte) (c : Bool) : (s.rotateTo v c).position = s.position := rfl
@[simp] theorem rotateTo_kindAt (v : Byte) (c : Bool) (x : Addr) : (s.rotateTo v c).kindAt x = s.kindAt x := rfl
@[simp] theorem rotateTo_memByte (v : Byte) (c : Bool) (x : Addr) : (s.rotateTo v c).memByte x = s.memByte x := rfl

/-! fetchOpcode -/

@[simp] theorem fetchOpcode_regs : (s.fetchOpcode.2).regs = s.regs := rfl
@[simp] theorem fetchOpcode_flags : (s.fetchOpcode.2).flags = s.flags := rfl
@[simp] theorem fetchOpcode_stack :
    (s.fetchOpcode.2).stack = stackSet s.stack s.sp (s.pc + 1) := rfl
@[simp] theorem fetchOpcode_sp : (s.fetchOpcode.2).sp = s.sp := rfl
@[simp] theorem fetchOpcode_run : (s.fetchOpcode.2).run = s.run := rfl
@[simp] theorem fetchOpcode_ir : (s.fetchOpcode.2).ir = s.busByte s.pc := rfl
@[simp] theorem fetchOpcode_irOrigin : (s.fetchOpcode.2).irOrigin = .memory s.pc := rfl
@[simp] theorem fetchOpcode_powerUpFF : (s.fetchOpcode.2).powerUpFF = s.powerUpFF := rfl
@[simp] theorem fetchOpcode_mem : (s.fetchOpcode.2).mem = s.mem := rfl
@[simp] theorem fetchOpcode_memMap : (s.fetchOpcode.2).memMap = s.memMap := rfl
@[simp] theorem fetchOpcode_events :
    (s.fetchOpcode.2).events = .opcodeFetch s.pc (s.busByte s.pc) :: s.events := rfl
@[simp] theorem fetchOpcode_intSource : (s.fetchOpcode.2).intSource = s.intSource := rfl
@[simp] theorem fetchOpcode_inputs : (s.fetchOpcode.2).inputs = s.inputs := rfl
@[simp] theorem fetchOpcode_acc : (s.fetchOpcode.2).acc = s.acc := rfl
@[simp] theorem fetchOpcode_hl : (s.fetchOpcode.2).hl = s.hl := rfl
@[simp] theorem fetchOpcode_readReg (q : Reg) : (s.fetchOpcode.2).readReg q = s.readReg q := rfl
@[simp] theorem fetchOpcode_kindAt (x : Addr) : (s.fetchOpcode.2).kindAt x = s.kindAt x := rfl
@[simp] theorem fetchOpcode_memByte (x : Addr) : (s.fetchOpcode.2).memByte x = s.memByte x := rfl

/-! fetchOperand -/

@[simp] theorem fetchOperand_regs (src : BusSource) : ((s.fetchOperand src).2).regs = s.regs := rfl
@[simp] theorem fetchOperand_flags (src : BusSource) :
    ((s.fetchOperand src).2).flags = s.flags := rfl
@[simp] theorem fetchOperand_stack (src : BusSource) :
    ((s.fetchOperand src).2).stack = stackSet s.stack s.sp (s.pc + 1) := rfl
@[simp] theorem fetchOperand_sp (src : BusSource) : ((s.fetchOperand src).2).sp = s.sp := rfl
@[simp] theorem fetchOperand_run (src : BusSource) : ((s.fetchOperand src).2).run = s.run := rfl
@[simp] theorem fetchOperand_ir (src : BusSource) : ((s.fetchOperand src).2).ir = s.ir := rfl
@[simp] theorem fetchOperand_irOrigin (src : BusSource) :
    ((s.fetchOperand src).2).irOrigin = s.irOrigin := rfl
@[simp] theorem fetchOperand_powerUpFF (src : BusSource) :
    ((s.fetchOperand src).2).powerUpFF = s.powerUpFF := rfl
@[simp] theorem fetchOperand_mem (src : BusSource) : ((s.fetchOperand src).2).mem = s.mem := rfl
@[simp] theorem fetchOperand_memMap (src : BusSource) :
    ((s.fetchOperand src).2).memMap = s.memMap := rfl
@[simp] theorem fetchOperand_events (src : BusSource) :
    ((s.fetchOperand src).2).events = .operandFetch s.pc (s.sourceByte src) :: s.events := rfl
@[simp] theorem fetchOperand_intSource (src : BusSource) :
    ((s.fetchOperand src).2).intSource = s.intSource := rfl
@[simp] theorem fetchOperand_inputs (src : BusSource) :
    ((s.fetchOperand src).2).inputs = s.inputs := rfl
@[simp] theorem fetchOperand_acc (src : BusSource) : ((s.fetchOperand src).2).acc = s.acc := rfl
@[simp] theorem fetchOperand_hl (src : BusSource) : ((s.fetchOperand src).2).hl = s.hl := rfl
@[simp] theorem fetchOperand_readReg (src : BusSource) (q : Reg) : ((s.fetchOperand src).2).readReg q = s.readReg q := rfl
@[simp] theorem fetchOperand_kindAt (src : BusSource) (x : Addr) : ((s.fetchOperand src).2).kindAt x = s.kindAt x := rfl
@[simp] theorem fetchOperand_memByte (src : BusSource) (x : Addr) : ((s.fetchOperand src).2).memByte x = s.memByte x := rfl

/-! fetchInterrupt -/

@[simp] theorem fetchInterrupt_regs (j : Jam) : ((s.fetchInterrupt j).2).regs = s.regs := rfl
@[simp] theorem fetchInterrupt_flags (j : Jam) : ((s.fetchInterrupt j).2).flags = s.flags := rfl
@[simp] theorem fetchInterrupt_stack (j : Jam) : ((s.fetchInterrupt j).2).stack = s.stack := rfl
@[simp] theorem fetchInterrupt_sp (j : Jam) : ((s.fetchInterrupt j).2).sp = s.sp := rfl
@[simp] theorem fetchInterrupt_run (j : Jam) : ((s.fetchInterrupt j).2).run = .running := rfl
@[simp] theorem fetchInterrupt_ir (j : Jam) :
    ((s.fetchInterrupt j).2).ir = s.sourceByte j.opcode := rfl
@[simp] theorem fetchInterrupt_irOrigin (j : Jam) :
    ((s.fetchInterrupt j).2).irOrigin = .jammed := rfl
@[simp] theorem fetchInterrupt_powerUpFF (j : Jam) :
    ((s.fetchInterrupt j).2).powerUpFF = false := rfl
@[simp] theorem fetchInterrupt_mem (j : Jam) : ((s.fetchInterrupt j).2).mem = s.mem := rfl
@[simp] theorem fetchInterrupt_memMap (j : Jam) : ((s.fetchInterrupt j).2).memMap = s.memMap := rfl
@[simp] theorem fetchInterrupt_events (j : Jam) :
    ((s.fetchInterrupt j).2).events = .interruptFetch s.pc (s.sourceByte j.opcode) :: s.events := rfl
@[simp] theorem fetchInterrupt_intSource (j : Jam) :
    ((s.fetchInterrupt j).2).intSource = s.intSource := rfl
@[simp] theorem fetchInterrupt_inputs (j : Jam) : ((s.fetchInterrupt j).2).inputs = s.inputs := rfl
@[simp] theorem fetchInterrupt_acc (j : Jam) : ((s.fetchInterrupt j).2).acc = s.acc := rfl
@[simp] theorem fetchInterrupt_hl (j : Jam) : ((s.fetchInterrupt j).2).hl = s.hl := rfl
@[simp] theorem fetchInterrupt_pc (j : Jam) : ((s.fetchInterrupt j).2).pc = s.pc := rfl
@[simp] theorem fetchInterrupt_readReg (j : Jam) (q : Reg) : ((s.fetchInterrupt j).2).readReg q = s.readReg q := rfl
@[simp] theorem fetchInterrupt_kindAt (j : Jam) (x : Addr) : ((s.fetchInterrupt j).2).kindAt x = s.kindAt x := rfl
@[simp] theorem fetchInterrupt_memByte (j : Jam) (x : Addr) : ((s.fetchInterrupt j).2).memByte x = s.memByte x := rfl

/-! The state after power-up -/

@[simp] theorem powerUp_regs (f : Flags) (k : StackPtr) : (State.powerUp f k).regs = ⟨0, 0, 0, 0, 0, 0, 0⟩ := rfl
@[simp] theorem powerUp_flags (f : Flags) (k : StackPtr) : (State.powerUp f k).flags = f := rfl
@[simp] theorem powerUp_stack (f : Flags) (k : StackPtr) : (State.powerUp f k).stack = Vector.replicate 8 0 := rfl
@[simp] theorem powerUp_sp (f : Flags) (k : StackPtr) : (State.powerUp f k).sp = k := rfl
@[simp] theorem powerUp_run (f : Flags) (k : StackPtr) : (State.powerUp f k).run = .stopped := rfl
@[simp] theorem powerUp_ir (f : Flags) (k : StackPtr) : (State.powerUp f k).ir = 0 := rfl
@[simp] theorem powerUp_irOrigin (f : Flags) (k : StackPtr) : (State.powerUp f k).irOrigin = .powerUp := rfl
@[simp] theorem powerUp_powerUpFF (f : Flags) (k : StackPtr) : (State.powerUp f k).powerUpFF = true := rfl
@[simp] theorem powerUp_mem (f : Flags) (k : StackPtr) : (State.powerUp f k).mem = [] := rfl
@[simp] theorem powerUp_memMap (f : Flags) (k : StackPtr) : (State.powerUp f k).memMap = referenceMap := rfl
@[simp] theorem powerUp_events (f : Flags) (k : StackPtr) : (State.powerUp f k).events = [] := rfl
@[simp] theorem powerUp_intSource (f : Flags) (k : StackPtr) : (State.powerUp f k).intSource = [] := rfl
@[simp] theorem powerUp_inputs (f : Flags) (k : StackPtr) : (State.powerUp f k).inputs = [] := rfl

end Sys2Proof.Machine
end

