-- ==== Sys2Proof/Laws/Operations.lean ====
section
/-! SUPPORT. What each shared operation can do, said once: registers, flags, the address stack, the
bus, fetching, and the instruction boundary. -/

namespace Sys2Proof.Machine

/-! Registers -/

@[simp] theorem regs_get_set_same (g : Regs) (r : Reg) (v : Byte) : (g.set r v).get r = v := by
  cases r <;> rfl

theorem regs_get_set_other (g : Regs) {r q : Reg} (v : Byte) (h : q ≠ r) :
    (g.set r v).get q = g.get q := by
  cases r <;> cases q <;> first | rfl | exact absurd rfl h

/-- A write of a register, read back by any name. -/
theorem readReg_writeReg (s : State) (r q : Reg) (v : Byte) :
    (s.writeReg r v).readReg q = if q = r then v else s.readReg q := by
  split
  · next h => subst h; exact regs_get_set_same _ _ _
  · next h => exact regs_get_set_other _ _ h

@[simp] theorem readReg_writeReg_same (s : State) (r : Reg) (v : Byte) :
    (s.writeReg r v).readReg r = v :=
  regs_get_set_same _ _ _

theorem readReg_writeReg_other (s : State) {r q : Reg} (v : Byte) (h : q ≠ r) :
    (s.writeReg r v).readReg q = s.readReg q :=
  regs_get_set_other _ _ h

/-- Writing back what a register holds changes nothing. -/
@[simp] theorem writeReg_self (s : State) (r : Reg) : s.writeReg r (s.readReg r) = s := by
  cases r <;> rfl

/-! The address stack -/

@[simp] theorem stackGet_set_same (stk : Vector Addr 8) (k : StackPtr) (v : Addr) :
    stackGet (stackSet stk k v) k = v := by
  simp [stackGet, stackSet]

theorem stackGet_set_other (stk : Vector Addr 8) {k j : StackPtr} (v : Addr) (h : j ≠ k) :
    stackGet (stackSet stk k v) j = stackGet stk j := by
  have hn : k.toNat ≠ j.toNat := fun e => h (BitVec.eq_of_toNat_eq e.symm)
  simp [stackGet, stackSet, Vector.getElem_set_ne, hn]

/-- Two address stacks with the same registers are the same. -/
theorem stack_ext {x y : Vector Addr 8} (h : ∀ k, stackGet x k = stackGet y k) : x = y := by
  apply Vector.ext
  intro n hn
  have e : (BitVec.ofNat 3 n).toNat = n := by
    simp only [BitVec.toNat_ofNat]
    omega
  have := h (BitVec.ofNat 3 n)
  simpa [stackGet, e] using this

/-- The pointer never names the same register before and after it moves. -/
theorem sp_ne_succ (k : StackPtr) : k ≠ k + 1 := by bv_omega

@[simp] theorem setPc_pc (s : State) (a : Addr) : (s.setPc a).pc = a := stackGet_set_same _ _ _

/-- `Push`: PC is the target, the register left keeps the return address, no other register of the
stack changes (10_state.md R28). -/
theorem push_spec (s : State) (t : Addr) :
    (s.push t).pc = t ∧ stackGet (s.push t).stack s.sp = s.pc ∧
      ∀ k, k ≠ s.sp + 1 → stackGet (s.push t).stack k = stackGet s.stack k := by
  refine ⟨stackGet_set_same _ _ _, stackGet_set_other _ _ (sp_ne_succ s.sp), ?_⟩
  intro k h
  exact stackGet_set_other _ _ h

@[simp] theorem push_pc (s : State) (t : Addr) : (s.push t).pc = t := (push_spec s t).1

/-- `Pop`: PC is the register below, the stack keeps every register (10_state.md R29). -/
theorem pop_spec (s : State) : s.pop.pc = stackGet s.stack (s.sp - 1) ∧ s.pop.stack = s.stack :=
  ⟨rfl, rfl⟩

@[simp] theorem fetchOpcode_pc (s : State) : s.fetchOpcode.2.pc = s.pc + 1 :=
  stackGet_set_same _ _ _

@[simp] theorem fetchOperand_pc (s : State) (src : BusSource) :
    (s.fetchOperand src).2.pc = s.pc + 1 :=
  stackGet_set_same _ _ _

/-! Memory and the bus -/

/-- Where the memory map has something, a read gives what is stored. -/
theorem busByte_present (s : State) {a : Addr} (h : s.kindAt a ≠ .absent) :
    s.busByte a = s.memByte a := by
  unfold State.busByte
  cases hk : s.kindAt a
  · rfl
  · rfl
  · exact absurd hk h

/-- Where it has nothing, a read gives the free byte of its position. -/
theorem busByte_absent (s : State) {a : Addr} (h : s.kindAt a = .absent) :
    s.busByte a = Config.floatingByte s.position := by
  simp [State.busByte, h]

/-- `MemWrite`: the byte goes to HL if RAM answers there; every other address keeps its byte; the
canonical form is kept. -/
theorem writeM_spec (s : State) (v : Byte) (w : s.mem.wf = true) :
    (s.writeM v).memByte s.hl = (if s.kindAt s.hl = .ram then v else s.memByte s.hl) ∧
      (∀ a, a ≠ s.hl → (s.writeM v).memByte a = s.memByte a) ∧ (s.writeM v).mem.wf = true :=
  ⟨storeInto_read_same w, fun _ h => storeInto_read_other h, storeInto_wf w⟩

/-! Fetching -/

/-- Fetching the operand bytes changes the address stack and the event history alone. -/
theorem fetchRest_frame (s : State) (b : Byte) (src2 src3 : BusSource) :
    (s.fetchRest b src2 src3).2.regs = s.regs ∧ (s.fetchRest b src2 src3).2.flags = s.flags ∧
      (s.fetchRest b src2 src3).2.sp = s.sp ∧ (s.fetchRest b src2 src3).2.run = s.run ∧
      (s.fetchRest b src2 src3).2.ir = s.ir ∧ (s.fetchRest b src2 src3).2.irOrigin = s.irOrigin ∧
      (s.fetchRest b src2 src3).2.powerUpFF = s.powerUpFF ∧
      (s.fetchRest b src2 src3).2.mem = s.mem ∧ (s.fetchRest b src2 src3).2.memMap = s.memMap ∧
      (s.fetchRest b src2 src3).2.intSource = s.intSource ∧
      (s.fetchRest b src2 src3).2.inputs = s.inputs := by
  unfold State.fetchRest
  split <;> simp

/-- What an instruction boundary can do: take an interrupt, stay STOPPED, or fetch at PC
(60_exceptions.md R214). -/
theorem boundary_cases (s : State) :
    (∃ j rest, s.intSource = some j :: rest ∧
      s.boundary = (some (State.fetchJammed { s with intSource := rest } j).1,
        (State.fetchJammed { s with intSource := rest } j).2)) ∨
    (s.intSource.head?.join = none ∧ s.run = .stopped ∧
      s.boundary = (none, { s with intSource := s.intSource.tail })) ∨
    (s.intSource.head?.join = none ∧ s.run = .running ∧
      s.boundary = (some (State.fetchInstr { s with intSource := s.intSource.tail }).1,
        (State.fetchInstr { s with intSource := s.intSource.tail }).2)) := by
  unfold State.boundary State.interruptAnswer
  cases hs : s.intSource with
  | nil =>
    cases s with
    | mk regs flags stack sp run ir irOrigin ff mem memMap events intSource inputs =>
      cases run <;> simp_all
  | cons x rest =>
    cases x with
    | some j => exact .inl ⟨j, rest, rfl, rfl⟩
    | none => cases hr : s.run <;> simp

/-- What a step can do, in terms of `exec` (60_exceptions.md R214). -/
theorem step_cases (s : State) :
    (∃ j rest, s.intSource = some j :: rest ∧
      step s = exec (State.fetchJammed { s with intSource := rest } j).1
        (State.fetchJammed { s with intSource := rest } j).2) ∨
    (s.intSource.head?.join = none ∧ s.run = .stopped ∧
      step s = .next { s with intSource := s.intSource.tail }) ∨
    (s.intSource.head?.join = none ∧ s.run = .running ∧
      step s = exec (State.fetchInstr { s with intSource := s.intSource.tail }).1
        (State.fetchInstr { s with intSource := s.intSource.tail }).2) := by
  unfold step
  rcases boundary_cases s with ⟨j, rest, h, e⟩ | ⟨h, hr, e⟩ | ⟨h, hr, e⟩
  · exact .inl ⟨j, rest, h, by rw [e]⟩
  · exact .inr (.inl ⟨h, hr, by rw [e]⟩)
  · exact .inr (.inr ⟨h, hr, by rw [e]⟩)

end Sys2Proof.Machine
end

