-- ==== Sys2Proof/Laws/Board.lean ====
section
/-! SUPPORT. What a step of the SIM8-01 can do, what its latches hold after one more bus cycle, and
what the processor shows at an instruction boundary. -/

namespace Sys2Proof.Machine

/-! What is shown -/

/-- What a processor shows at a boundary: T1I, STOPPED, or T1. -/
theorem shown_cases (s : State) :
    ((∃ j rest, s.intSource = some j :: rest) ∧
      s.shown = (.t1i, .driven (addressT1 s.pc))) ∨
    (s.intSource.head?.join = none ∧ s.run = .stopped ∧ s.shown = (.stopped, .floating)) ∨
    (s.intSource.head?.join = none ∧ s.run = .running ∧
      s.shown = (.t1, .driven (addressT1 s.pc))) := by
  unfold State.shown State.interruptAnswer
  cases hs : s.intSource with
  | nil => cases hr : s.run <;> simp
  | cons x rest =>
    cases x with
    | some j => exact .inl ⟨⟨j, rest, rfl⟩, rfl⟩
    | none => cases hr : s.run <;> simp

/-! Fetching does not look at the input devices -/

theorem fetchRest_inputs (s : State) (ins : List Byte) (b : Byte) (x y : BusSource) :
    State.fetchRest { s with inputs := ins } b x y =
      ((s.fetchRest b x y).1, { (s.fetchRest b x y).2 with inputs := ins }) := by
  unfold State.fetchRest
  split <;> cases x <;> cases y <;> rfl

theorem fetchInstr_inputs (s : State) (ins : List Byte) :
    State.fetchInstr { s with inputs := ins } =
      (s.fetchInstr.1, { s.fetchInstr.2 with inputs := ins }) :=
  fetchRest_inputs s.fetchOpcode.2 ins _ _ _

theorem fetchJammed_inputs (s : State) (ins : List Byte) (j : Jam) :
    State.fetchJammed { s with inputs := ins } j =
      ((s.fetchJammed j).1, { (s.fetchJammed j).2 with inputs := ins }) := by
  have e : State.fetchInterrupt { s with inputs := ins } j =
      ((s.fetchInterrupt j).1, { (s.fetchInterrupt j).2 with inputs := ins }) := by
    unfold State.fetchInterrupt
    cases j.opcode <;> rfl
  unfold State.fetchJammed
  rw [e]
  exact fetchRest_inputs (s.fetchInterrupt j).2 ins _ _ _

theorem interruptAnswer_inputs (s : State) (ins : List Byte) :
    State.interruptAnswer { s with inputs := ins } =
      (s.interruptAnswer.1, { s.interruptAnswer.2 with inputs := ins }) := by
  rcases s with ⟨regs, flags, stack, sp, run, ir, org, ff, mem, map, events, src, inp⟩
  cases src <;> rfl

/-- The boundary is the same whatever the input devices drive. -/
theorem boundary_inputs (s : State) (ins : List Byte) :
    State.boundary { s with inputs := ins } =
      (s.boundary.1, { s.boundary.2 with inputs := ins }) := by
  unfold State.boundary
  rw [interruptAnswer_inputs]
  rcases s.interruptAnswer with ⟨answer, u⟩
  cases answer with
  | some j =>
    dsimp only
    rw [fetchJammed_inputs]
  | none =>
    dsimp only
    rw [fetchInstr_inputs]
    split <;> rfl

/-! Steps of the board -/

/-- The board's step where the processor takes or fetches an instruction: the instruction, with what
the input ports give it, and the latch reset where the interrupt is taken. -/
theorem board_step_some (b : Sim801) {i : Instr} {u t : State}
    (h : b.interrupted.boundary = (some i, u))
    (e : exec i { u with inputs := b.inputFor (some i) } = .next t) :
    b.step = .next { b with cpu := t, intLatch := b.intLatch && !b.intLine } := by
  have hs : Sys2Proof.Machine.step b.presented = .next t := by
    unfold Sys2Proof.Machine.step Sim801.presented
    rw [boundary_inputs, h]
    exact e
  unfold Sim801.step
  rw [hs]

/-- The board's step where the processor stays STOPPED. -/
theorem board_step_none (b : Sim801) {u : State} (h : b.interrupted.boundary = (none, u)) :
    b.step = .next { b with
      cpu := { u with inputs := [] }
      intLatch := b.intLatch && !b.intLine } := by
  have hs : Sys2Proof.Machine.step b.presented = .next { u with inputs := [] } := by
    unfold Sys2Proof.Machine.step Sim801.presented
    rw [boundary_inputs, h]
    rfl
  unfold Sim801.step
  rw [hs]

/-! Latches -/

/-- The newest output after one more cycle. -/
theorem lastOutput_cons (e : BusEvent) (rest : List BusEvent) (port : BitVec 5) :
    (∃ v, e = .output port v ∧ lastOutput (e :: rest) port = some v) ∨
      ((∀ v, e ≠ .output port v) ∧ lastOutput (e :: rest) port = lastOutput rest port) := by
  cases e with
  | output q v =>
    by_cases h : q = port
    · subst h; exact .inl ⟨v, rfl, by simp [lastOutput]⟩
    · exact .inr ⟨fun w e => h (by cases e; rfl), by simp [lastOutput, h]⟩
  | _ => exact .inr ⟨fun v e => (nomatch e), rfl⟩

/-- The newest flags after one more cycle. -/
theorem lastFlags_cons (e : BusEvent) (rest : List BusEvent) :
    (∃ p a v f, e = .input p a v f ∧ lastFlags (e :: rest) = some f) ∨
      ((∀ p a v f, e ≠ .input p a v f) ∧ lastFlags (e :: rest) = lastFlags rest) := by
  cases e with
  | input p a v f => exact .inl ⟨p, a, v, f, rfl, rfl⟩
  | _ => exact .inr ⟨fun p a v f e => (nomatch e), rfl⟩

end Sys2Proof.Machine
end

