-- ==== Sys2Proof/Laws/Execution.lean ====
section
/-! SUPPORT. What every instruction leaves alone, and runs taken one step at a time. -/

namespace Sys2Proof.Machine

/-! The address stack -/

@[simp] theorem stackSet_twice (stk : Vector Addr 8) (k : StackPtr) (a b : Addr) :
    stackSet (stackSet stk k a) k b = stackSet stk k b := by
  apply stack_ext
  intro j
  by_cases h : j = k
  · subst h; simp
  · simp [stackGet_set_other _ _ h]

@[simp] theorem stackSet_self (stk : Vector Addr 8) (k : StackPtr) :
    stackSet stk k (stackGet stk k) = stk := by
  apply stack_ext
  intro j
  by_cases h : j = k
  · subst h; simp
  · simp [stackGet_set_other _ _ h]

/-! Instructions -/

/-- What no instruction changes, and what one can add to the event history: nothing, or one event,
an output only by OUT. -/
theorem exec_frame {i : Instr} {s t : State} (h : exec i s = .next t) :
    t.ir = s.ir ∧ t.irOrigin = s.irOrigin ∧ t.powerUpFF = s.powerUpFF ∧ t.memMap = s.memMap ∧
      t.intSource = s.intSource ∧ (s.mem.wf = true → t.mem.wf = true) ∧
      (t.events = s.events ∨
        ∃ e, t.events = e :: s.events ∧ ∀ p v, e = .output p v → i = .out p) := by
  cases i
  case lmr r =>
    cases h
    exact ⟨rfl, rfl, rfl, rfl, rfl, fun w => (writeM_spec s _ w).2.2, .inr ⟨_, rfl, by simp⟩⟩
  case lmi r =>
    cases h
    exact ⟨rfl, rfl, rfl, rfl, rfl, fun w => (writeM_spec s _ w).2.2, .inr ⟨_, rfl, by simp⟩⟩
  all_goals first
    | (cases h; done)
    | (cases h; exact ⟨rfl, rfl, rfl, rfl, rfl, id, .inl rfl⟩)
    | (cases h; exact ⟨rfl, rfl, rfl, rfl, rfl, id, .inr ⟨_, rfl, by simp⟩⟩)
    | (simp only [exec] at h; cases h
       simp only [State.jumpIf, State.callIf, State.returnIf]
       split <;> exact ⟨rfl, rfl, rfl, rfl, rfl, id, .inl rfl⟩)

/-! Runs -/

/-- The first step of a run. -/
theorem runsTo_succ {k : Nat} {s u t : State} (h : step s = .next u) :
    RunsTo (k + 1) s t ↔ RunsTo k u t := by
  have e := Host.Core.run.eq_2 Sys2Proof.core s k
  rw [show Sys2Proof.core.step s = _ from h] at e
  exact iff_of_eq (congrArg (· = Host.Outcome.next t) e)

/-- A run of more than no steps begins with one that answers a next state. -/
theorem runsTo_succ_inv {k : Nat} {s t : State} (h : RunsTo (k + 1) s t) :
    ∃ u, step s = .next u ∧ RunsTo k u t := by
  have e := Host.Core.run.eq_2 Sys2Proof.core s k
  cases hs : step s with
  | next u => exact ⟨u, rfl, (runsTo_succ hs).mp h⟩
  | fault r =>
    rw [show Sys2Proof.core.step s = _ from hs] at e
    rw [RunsTo, e] at h
    cases h
  | refused r =>
    rw [show Sys2Proof.core.step s = _ from hs] at e
    rw [RunsTo, e] at h
    cases h

/-- A relation that is reflexive and goes back over one step holds between the ends of every run. -/
theorem reaches_induction {P : State → State → Prop} (refl : ∀ s, P s s)
    (back : ∀ s u t, step s = .next u → P u t → P s t) {s t : State} (h : Reaches s t) : P s t := by
  obtain ⟨k, h⟩ := h
  induction k generalizing s with
  | zero => cases h; exact refl _
  | succ k ih =>
    obtain ⟨u, hu, hr⟩ := runsTo_succ_inv h
    exact back _ u t hu (ih hr)

end Sys2Proof.Machine
end

