-- ==== Sys2Proof/Laws/PerInstr.lean ====
section
/-! SUPPORT. Statements made of every instruction as syntax, one lemma for each constructor of
`Instr`. -/

namespace Sys2Proof.Laws

/-- The canonical bytes of an instruction are as many as its first byte alone asks for
(30_encoding.md R90). -/
def EncodedLength.Statement (i : Instr) : Prop :=
  ∃ b rest, encode i = b :: rest ∧ rest.length + 1 = instrLength b

theorem EncodedLength.hlt : EncodedLength.Statement .hlt := ⟨_, _, rfl, rfl⟩

theorem EncodedLength.hltFF : EncodedLength.Statement .hltFF := ⟨_, _, rfl, rfl⟩

theorem EncodedLength.undefined22 : EncodedLength.Statement .undefined22 := ⟨_, _, rfl, rfl⟩

theorem EncodedLength.undefined2A : EncodedLength.Statement .undefined2A := ⟨_, _, rfl, rfl⟩

theorem EncodedLength.undefined32 : EncodedLength.Statement .undefined32 := ⟨_, _, rfl, rfl⟩

theorem EncodedLength.undefined3A : EncodedLength.Statement .undefined3A := ⟨_, _, rfl, rfl⟩

theorem EncodedLength.undefined38 : EncodedLength.Statement .undefined38 := ⟨_, _, rfl, rfl⟩

theorem EncodedLength.undefined39 : EncodedLength.Statement .undefined39 := ⟨_, _, rfl, rfl⟩

theorem EncodedLength.rlc : EncodedLength.Statement .rlc := ⟨_, _, rfl, rfl⟩

theorem EncodedLength.rrc : EncodedLength.Statement .rrc := ⟨_, _, rfl, rfl⟩

theorem EncodedLength.ral : EncodedLength.Statement .ral := ⟨_, _, rfl, rfl⟩

theorem EncodedLength.rar : EncodedLength.Statement .rar := ⟨_, _, rfl, rfl⟩

theorem EncodedLength.inr (r : Reg) : EncodedLength.Statement (.inr r) := by
  cases r <;> exact ⟨_, _, rfl, rfl⟩

theorem EncodedLength.dcr (r : Reg) : EncodedLength.Statement (.dcr r) := by
  cases r <;> exact ⟨_, _, rfl, rfl⟩

theorem EncodedLength.rfc (c : Cond) : EncodedLength.Statement (.rfc c) := by
  cases c <;> exact ⟨_, _, rfl, rfl⟩

theorem EncodedLength.rtc (c : Cond) : EncodedLength.Statement (.rtc c) := by
  cases c <;> exact ⟨_, _, rfl, rfl⟩

theorem EncodedLength.adi (v : Byte) : EncodedLength.Statement (.adi v) := ⟨_, _, rfl, rfl⟩

theorem EncodedLength.aci (v : Byte) : EncodedLength.Statement (.aci v) := ⟨_, _, rfl, rfl⟩

theorem EncodedLength.sui (v : Byte) : EncodedLength.Statement (.sui v) := ⟨_, _, rfl, rfl⟩

theorem EncodedLength.sbi (v : Byte) : EncodedLength.Statement (.sbi v) := ⟨_, _, rfl, rfl⟩

theorem EncodedLength.ndi (v : Byte) : EncodedLength.Statement (.ndi v) := ⟨_, _, rfl, rfl⟩

theorem EncodedLength.xri (v : Byte) : EncodedLength.Statement (.xri v) := ⟨_, _, rfl, rfl⟩

theorem EncodedLength.ori (v : Byte) : EncodedLength.Statement (.ori v) := ⟨_, _, rfl, rfl⟩

theorem EncodedLength.cpi (v : Byte) : EncodedLength.Statement (.cpi v) := ⟨_, _, rfl, rfl⟩

theorem EncodedLength.rst (aaa : BitVec 3) : EncodedLength.Statement (.rst aaa) := by
  refine ⟨_, _, rfl, ?_⟩
  revert aaa
  decide

theorem EncodedLength.lmi (v : Byte) : EncodedLength.Statement (.lmi v) := ⟨_, _, rfl, rfl⟩

theorem EncodedLength.lri (r : Reg) (v : Byte) : EncodedLength.Statement (.lri r v) := by
  cases r <;> exact ⟨_, _, rfl, rfl⟩

theorem EncodedLength.ret : EncodedLength.Statement .ret := ⟨_, _, rfl, rfl⟩

theorem EncodedLength.inp (port : BitVec 3) : EncodedLength.Statement (.inp port) := by
  refine ⟨_, _, rfl, ?_⟩
  revert port
  decide

theorem EncodedLength.out (port : BitVec 5) : EncodedLength.Statement (.out port) := by
  refine ⟨_, _, rfl, ?_⟩
  revert port
  decide

theorem EncodedLength.jmp (target : Addr) : EncodedLength.Statement (.jmp target) :=
  ⟨_, _, rfl, rfl⟩

theorem EncodedLength.cal (target : Addr) : EncodedLength.Statement (.cal target) :=
  ⟨_, _, rfl, rfl⟩

theorem EncodedLength.jfc (c : Cond) (target : Addr) : EncodedLength.Statement (.jfc c target) := by
  cases c <;> exact ⟨_, _, rfl, rfl⟩

theorem EncodedLength.jtc (c : Cond) (target : Addr) : EncodedLength.Statement (.jtc c target) := by
  cases c <;> exact ⟨_, _, rfl, rfl⟩

theorem EncodedLength.cfc (c : Cond) (target : Addr) : EncodedLength.Statement (.cfc c target) := by
  cases c <;> exact ⟨_, _, rfl, rfl⟩

theorem EncodedLength.ctc (c : Cond) (target : Addr) : EncodedLength.Statement (.ctc c target) := by
  cases c <;> exact ⟨_, _, rfl, rfl⟩

theorem EncodedLength.adm : EncodedLength.Statement .adm := ⟨_, _, rfl, rfl⟩

theorem EncodedLength.adr (r : Reg) : EncodedLength.Statement (.adr r) := by
  cases r <;> exact ⟨_, _, rfl, rfl⟩

theorem EncodedLength.acm : EncodedLength.Statement .acm := ⟨_, _, rfl, rfl⟩

theorem EncodedLength.acr (r : Reg) : EncodedLength.Statement (.acr r) := by
  cases r <;> exact ⟨_, _, rfl, rfl⟩

theorem EncodedLength.sum : EncodedLength.Statement .sum := ⟨_, _, rfl, rfl⟩

theorem EncodedLength.sur (r : Reg) : EncodedLength.Statement (.sur r) := by
  cases r <;> exact ⟨_, _, rfl, rfl⟩

theorem EncodedLength.sbm : EncodedLength.Statement .sbm := ⟨_, _, rfl, rfl⟩

theorem EncodedLength.sbr (r : Reg) : EncodedLength.Statement (.sbr r) := by
  cases r <;> exact ⟨_, _, rfl, rfl⟩

theorem EncodedLength.ndm : EncodedLength.Statement .ndm := ⟨_, _, rfl, rfl⟩

theorem EncodedLength.ndr (r : Reg) : EncodedLength.Statement (.ndr r) := by
  cases r <;> exact ⟨_, _, rfl, rfl⟩

theorem EncodedLength.xrm : EncodedLength.Statement .xrm := ⟨_, _, rfl, rfl⟩

theorem EncodedLength.xrr (r : Reg) : EncodedLength.Statement (.xrr r) := by
  cases r <;> exact ⟨_, _, rfl, rfl⟩

theorem EncodedLength.orm : EncodedLength.Statement .orm := ⟨_, _, rfl, rfl⟩

theorem EncodedLength.orr (r : Reg) : EncodedLength.Statement (.orr r) := by
  cases r <;> exact ⟨_, _, rfl, rfl⟩

theorem EncodedLength.cpm : EncodedLength.Statement .cpm := ⟨_, _, rfl, rfl⟩

theorem EncodedLength.cpr (r : Reg) : EncodedLength.Statement (.cpr r) := by
  cases r <;> exact ⟨_, _, rfl, rfl⟩

theorem EncodedLength.lrm (r : Reg) : EncodedLength.Statement (.lrm r) := by
  cases r <;> exact ⟨_, _, rfl, rfl⟩

theorem EncodedLength.lmr (r : Reg) : EncodedLength.Statement (.lmr r) := by
  cases r <;> exact ⟨_, _, rfl, rfl⟩

theorem EncodedLength.lrr (r1 r2 : Reg) : EncodedLength.Statement (.lrr r1 r2) := by
  cases r1 <;> cases r2 <;> exact ⟨_, _, rfl, rfl⟩

end Sys2Proof.Laws
end

