-- ==== Sys2Proof/Machine/Assembly.lean ====
section
/-! DEFINITION. The notation of the manual's listings (30_encoding.md R100, R101, R103) and the PROM
tape word (R104). Notation only: no meaning reads it (92_eei_decisions.md D20, log 30). -/

namespace Sys2Proof.Machine

/-- The letter of a register (30_encoding.md R100). -/
def regLetter (r : Reg) : String :=
  match r with
  | .a => "A"
  | .b => "B"
  | .c => "C"
  | .d => "D"
  | .e => "E"
  | .h => "H"
  | .l => "L"

/-- The letter of a condition (30_encoding.md R100). -/
def condLetter (c : Cond) : String :=
  match c with
  | .carry => "C"
  | .zero => "Z"
  | .sign => "S"
  | .parity => "P"

/-- A number below 64 in octal with the suffix B (00_scope.md R9; 30_encoding.md R101). -/
def octal (n : Nat) : String :=
  if n < 8 then toString n ++ "B" else toString (n / 8) ++ toString (n % 8) ++ "B"

/-- The line of an instruction in the notation of R100 and R101: data and addresses in decimal,
ports in octal, RST by its target (D20). The undefined bytes have no mnemonic in the source. -/
def mnemonic (i : Instr) : String :=
  match i with
  | .hlt | .hltFF => "HLT"
  | .undefined22 | .undefined2A | .undefined32 | .undefined3A | .undefined38 | .undefined39 => ""
  | .rlc => "RLC"
  | .rrc => "RRC"
  | .ral => "RAL"
  | .rar => "RAR"
  | .inr r => "IN" ++ regLetter r
  | .dcr r => "DC" ++ regLetter r
  | .rfc c => "RF" ++ condLetter c
  | .rtc c => "RT" ++ condLetter c
  | .adi v => "ADI " ++ toString v.toNat
  | .aci v => "ACI " ++ toString v.toNat
  | .sui v => "SUI " ++ toString v.toNat
  | .sbi v => "SBI " ++ toString v.toNat
  | .ndi v => "NDI " ++ toString v.toNat
  | .xri v => "XRI " ++ toString v.toNat
  | .ori v => "ORI " ++ toString v.toNat
  | .cpi v => "CPI " ++ toString v.toNat
  | .rst aaa => "RST " ++ toString (8 * aaa.toNat)
  | .lmi v => "LMI " ++ toString v.toNat
  | .lri r v => "L" ++ regLetter r ++ "I " ++ toString v.toNat
  | .ret => "RET"
  | .inp port => "INP " ++ octal port.toNat
  | .out port => "OUT " ++ octal port.toNat
  | .jmp t => "JMP " ++ toString t.toNat
  | .cal t => "CAL " ++ toString t.toNat
  | .jfc c t => "JF" ++ condLetter c ++ " " ++ toString t.toNat
  | .jtc c t => "JT" ++ condLetter c ++ " " ++ toString t.toNat
  | .cfc c t => "CF" ++ condLetter c ++ " " ++ toString t.toNat
  | .ctc c t => "CT" ++ condLetter c ++ " " ++ toString t.toNat
  | .adm => "ADM"
  | .adr r => "AD" ++ regLetter r
  | .acm => "ACM"
  | .acr r => "AC" ++ regLetter r
  | .sum => "SUM"
  | .sur r => "SU" ++ regLetter r
  | .sbm => "SBM"
  | .sbr r => "SB" ++ regLetter r
  | .ndm => "NDM"
  | .ndr r => "ND" ++ regLetter r
  | .xrm => "XRM"
  | .xrr r => "XR" ++ regLetter r
  | .orm => "ORM"
  | .orr r => "OR" ++ regLetter r
  | .cpm => "CPM"
  | .cpr r => "CP" ++ regLetter r
  | .lrm r => "L" ++ regLetter r ++ "M"
  | .lmr r => "LM" ++ regLetter r
  | .lrr r1 r2 => "L" ++ regLetter r1 ++ regLetter r2

/-- The no-operations: loads of a register into itself (30_encoding.md R99; 45_machine.md R201). -/
def isNop (i : Instr) : Bool :=
  match i with
  | .lrr r1 r2 => decide (r1 = r2)
  | .hlt | .hltFF | .undefined22 | .undefined2A | .undefined32 | .undefined3A | .undefined38
  | .undefined39 | .rlc | .rrc | .ral | .rar | .inr _ | .dcr _ | .rfc _ | .rtc _ | .adi _ | .aci _
  | .sui _ | .sbi _ | .ndi _ | .xri _ | .ori _ | .cpi _ | .rst _ | .lmi _ | .lri _ _ | .ret
  | .inp _ | .out _ | .jmp _ | .cal _ | .jfc _ _ | .jtc _ _ | .cfc _ _ | .ctc _ _ | .adm | .adr _
  | .acm | .acr _ | .sum | .sur _ | .sbm | .sbr _ | .ndm | .ndr _ | .xrm | .xrr _ | .orm | .orr _
  | .cpm | .cpr _ | .lrm _ | .lmr _ => false

/-- One data character of the tape: P for 1, N for 0 (30_encoding.md R104). -/
def tapeBit (b : Bool) : Char := if b then 'P' else 'N'

/-- The ten characters of a byte on the tape, D7 first (30_encoding.md R104). -/
def tapeWord (v : Byte) : List Char :=
  ['B', tapeBit v[7], tapeBit v[6], tapeBit v[5], tapeBit v[4], tapeBit v[3], tapeBit v[2],
    tapeBit v[1], tapeBit v[0], 'F']

end Sys2Proof.Machine
end

