-- ==== Sys2Proof/Tests/Slice0.lean ====
section
/-! SUPPORT. Tests on concrete values, from the spec's encodings and from the vectors of
95_test_vectors.md (their numbers stand in the comments), and for each obligation with hypotheses a
state and operands that meet them. -/

namespace Sys2Proof.Tests

open Sys2Proof.Machine Sys2Proof.Claims

/-! Helpers -/

/-- Bytes laid out from an address on. -/
def load (m : Memory) (a : Nat) (bytes : List Byte) : Memory :=
  match bytes with
  | [] => m
  | b :: rest => load (m.write (a % 16384) b) (a + 1) rest

/-- All registers 0 but those given. -/
def regs (a b c d e h l : Byte) : Regs := ⟨a, b, c, d, e, h, l⟩

/-- A running machine in the reference environment, an instruction at PC. -/
def start (pc : Addr) (code : List Byte) (data : Memory) (g : Regs) (f : Flags) : State :=
  { State.powerUp f 0 with
    run := .running, powerUpFF := false, irOrigin := .jammed, regs := g
    stack := stackSet (Vector.replicate 8 0) 0 pc
    mem := load data pc.toNat code }

/-- A result is a next state with a property. -/
def next (r : Result) (p : State → Bool) : Bool :=
  match r with
  | .next t => p t
  | .fault _ => false
  | .refused _ => false

/-- A result is the fault of an undefined first byte. -/
def faults (r : Result) (b : Byte) (o : FetchOrigin) : Bool :=
  match r with
  | .next _ => false
  | .fault (.undefinedOpcode b' o') => decide (b' = b ∧ o' = o)
  | .refused _ => false

/-- A step leaves these registers, flags and PC. -/
def leaves (r : Result) (g : Regs) (f : Flags) (pc : Addr) : Bool :=
  next r fun t => decide (t.regs = g ∧ t.flags = f ∧ t.pc = pc)

/-- Exactly these bytes decode to an instruction. -/
def reads (bytes : List Byte) (i : Instr) : Bool :=
  match decode bytes with
  | .ok (j, []) => decide (j = i)
  | _ => false

/-- No flag is set. -/
def noFlags : Flags := ⟨false, false, false, false⟩

/-! Well-formedness: each check refuses an ill-formed term -/

/-- 30_encoding.md R92: A cannot be incremented. -/
theorem test_wellFormed_refuses_inr_a : (Instr.inr .a).wellFormed = false := by decide

/-- 30_encoding.md R92: A cannot be decremented. -/
theorem test_wellFormed_refuses_dcr_a : (Instr.dcr .a).wellFormed = false := by decide

/-- 30_encoding.md R89: RR = 00 is no output port. -/
theorem test_wellFormed_refuses_out_7 : (Instr.out 7).wellFormed = false := by decide

/-- 30_encoding.md R89: 8 is the lowest output port. -/
theorem test_wellFormed_admits_out_8 : (Instr.out 8).wellFormed = true := by decide

/-! Decoding: a word for every constructor, written out from 30_encoding.md R91 to R97 -/

theorem test_decode_hlt : reads [0b00000001] .hlt = true := by decide

theorem test_decode_hltFF : reads [0b11111111] .hltFF = true := by decide

theorem test_decode_undefined22 : reads [0b00100010] .undefined22 = true := by decide

theorem test_decode_undefined2A : reads [0b00101010] .undefined2A = true := by decide

theorem test_decode_undefined32 : reads [0b00110010] .undefined32 = true := by decide

theorem test_decode_undefined3A : reads [0b00111010] .undefined3A = true := by decide

theorem test_decode_undefined38 : reads [0b00111000] .undefined38 = true := by decide

theorem test_decode_undefined39 : reads [0b00111001] .undefined39 = true := by decide

theorem test_decode_rlc : reads [0b00000010] .rlc = true := by decide

theorem test_decode_rrc : reads [0b00001010] .rrc = true := by decide

theorem test_decode_ral : reads [0b00010010] .ral = true := by decide

theorem test_decode_rar : reads [0b00011010] .rar = true := by decide

theorem test_decode_inr : reads [0b00101000] (.inr .h) = true := by decide

theorem test_decode_dcr : reads [0b00110001] (.dcr .l) = true := by decide

theorem test_decode_rfc : reads [0b00010011] (.rfc .sign) = true := by decide

theorem test_decode_rtc : reads [0b00111011] (.rtc .parity) = true := by decide

theorem test_decode_adi : reads [0b00000100, 0b10000001] (.adi 0x81) = true := by decide

theorem test_decode_aci : reads [0b00001100, 0b10000001] (.aci 0x81) = true := by decide

theorem test_decode_sui : reads [0b00010100, 0b10000001] (.sui 0x81) = true := by decide

theorem test_decode_sbi : reads [0b00011100, 0b10000001] (.sbi 0x81) = true := by decide

theorem test_decode_ndi : reads [0b00100100, 0b10000001] (.ndi 0x81) = true := by decide

theorem test_decode_xri : reads [0b00101100, 0b10000001] (.xri 0x81) = true := by decide

theorem test_decode_ori : reads [0b00110100, 0b10000001] (.ori 0x81) = true := by decide

theorem test_decode_cpi : reads [0b00111100, 0b10000001] (.cpi 0x81) = true := by decide

theorem test_decode_rst : reads [0b00011101] (.rst 3) = true := by decide

theorem test_decode_lmi : reads [0b00111110, 0b00000111] (.lmi 7) = true := by decide

theorem test_decode_lri : reads [0b00011110, 0b01110011] (.lri .d 115) = true := by decide

theorem test_decode_ret : reads [0b00101111] .ret = true := by decide

theorem test_decode_inp : reads [0b01001101] (.inp 6) = true := by decide

theorem test_decode_out : reads [0b01101011] (.out 21) = true := by decide

theorem test_decode_jmp :
    reads [0b01010100, 0b11001110, 0b11000001] (.jmp 0x01CE) = true := by
  decide

theorem test_decode_cal :
    reads [0b01111110, 0b00111100, 0b00000010] (.cal 0x023C) = true := by
  decide

theorem test_decode_jfc :
    reads [0b01001000, 0b01101000, 0b00000001] (.jfc .zero 0x0168) = true := by
  decide

theorem test_decode_jtc :
    reads [0b01100000, 0b01101000, 0b00000001] (.jtc .carry 0x0168) = true := by
  decide

theorem test_decode_cfc :
    reads [0b01011010, 0b01101000, 0b00000001] (.cfc .parity 0x0168) = true := by
  decide

theorem test_decode_ctc :
    reads [0b01110010, 0b01101000, 0b00000001] (.ctc .sign 0x0168) = true := by
  decide

theorem test_decode_adm : reads [0b10000111] .adm = true := by decide

theorem test_decode_adr : reads [0b10000001] (.adr .b) = true := by decide

theorem test_decode_acm : reads [0b10001111] .acm = true := by decide

theorem test_decode_acr : reads [0b10001010] (.acr .c) = true := by decide

theorem test_decode_sum : reads [0b10010111] .sum = true := by decide

theorem test_decode_sur : reads [0b10010011] (.sur .d) = true := by decide

theorem test_decode_sbm : reads [0b10011111] .sbm = true := by decide

theorem test_decode_sbr : reads [0b10011100] (.sbr .e) = true := by decide

theorem test_decode_ndm : reads [0b10100111] .ndm = true := by decide

theorem test_decode_ndr : reads [0b10100101] (.ndr .h) = true := by decide

theorem test_decode_xrm : reads [0b10101111] .xrm = true := by decide

theorem test_decode_xrr : reads [0b10101000] (.xrr .a) = true := by decide

theorem test_decode_orm : reads [0b10110111] .orm = true := by decide

theorem test_decode_orr : reads [0b10110110] (.orr .l) = true := by decide

theorem test_decode_cpm : reads [0b10111111] .cpm = true := by decide

theorem test_decode_cpr : reads [0b10111001] (.cpr .b) = true := by decide

theorem test_decode_lrm : reads [0b11100111] (.lrm .e) = true := by decide

theorem test_decode_lmr : reads [0b11111010] (.lmr .c) = true := by decide

theorem test_decode_lrr : reads [0b11101011] (.lrr .h .d) = true := by decide

theorem test_decode_operand_missing : decode [0b01000100, 0] = .error (.operandMissing 0x44) := rfl

/-- The second byte of a table word is bits 15 to 8, the third bits 23 to 16. -/
theorem test_decodeTableWord_jmp : decodeTableWord 24 0xC1CE44 = some (.jmp 0x01CE) := by decide

/-- An operand byte to which the table gives no bits is 0. -/
theorem test_decodeTableWord_short : decodeTableWord 8 0x06 = some (.lri .a 0) := by decide

/-! Instructions, one step each -/

/-- V-IDX-1 -/
theorem test_lrr :
    leaves (step (start 0x0100 [0xC8] []
      (regs 0x5A 0 0 0 0 0 0) ⟨true, true, true, true⟩))
      (regs 0x5A 0x5A 0 0 0 0 0) ⟨true, true, true, true⟩ 0x0101 = true := by
  decide

/-- V-IDX-6: bits 7 and 6 of H are no part of the address -/
theorem test_lrm :
    leaves (step (start 0x0100 [0xC7] [(0x0105, 0x99)]
      (regs 0 0 0 0 0 0xC1 0x05) ⟨false, false, false, false⟩))
      (regs 0x99 0 0 0 0 0xC1 0x05) ⟨false, false, false, false⟩ 0x0101 = true := by
  decide

/-- V-IDX-7: the address is formed from the old H -/
theorem test_lrm_h :
    leaves (step (start 0x0100 [0xEF] [(0x0210, 0x3F)]
      (regs 0 0 0 0 0 0x02 0x10) ⟨false, false, false, false⟩))
      (regs 0 0 0 0 0 0x3F 0x10) ⟨false, false, false, false⟩ 0x0101 = true := by
  decide

/-- V-IDX-13 -/
theorem test_lri :
    leaves (step (start 0x0100 [0x1E, 0x73] []
      (regs 0 0 0 0 0 0 0) ⟨true, true, false, false⟩))
      (regs 0 0 0 0x73 0 0 0) ⟨true, true, false, false⟩ 0x0102 = true := by
  decide

/-- V-IDX-18: the carry is not written -/
theorem test_inr :
    leaves (step (start 0x0100 [0x30] []
      (regs 0 0 0 0 0 0 0xFF) ⟨false, false, false, false⟩))
      (regs 0 0 0 0 0 0 0) ⟨false, true, false, true⟩ 0x0101 = true := by
  decide

/-- V-IDX-19: H has eight bits -/
theorem test_inr_h :
    leaves (step (start 0x0100 [0x28] []
      (regs 0 0 0 0 0 0x3F 0) ⟨true, false, false, false⟩))
      (regs 0 0 0 0 0 0x40 0) ⟨true, false, false, false⟩ 0x0101 = true := by
  decide

/-- V-IDX-21 -/
theorem test_dcr :
    leaves (step (start 0x0100 [0x09] []
      (regs 0 0 0 0 0 0 0) ⟨false, false, false, false⟩))
      (regs 0 0xFF 0 0 0 0 0) ⟨false, false, true, true⟩ 0x0101 = true := by
  decide

/-- V-IDX-22 -/
theorem test_dcr_l :
    leaves (step (start 0x0100 [0x31] []
      (regs 0 0 0 0 0 0 0x80) ⟨true, false, false, false⟩))
      (regs 0 0 0 0 0 0 0x7F) ⟨true, false, false, false⟩ 0x0101 = true := by
  decide

/-- V-ALU-1 -/
theorem test_adr :
    leaves (step (start 0x0100 [0x81] []
      (regs 0x3A 0x4C 0 0 0 0 0) ⟨true, false, false, false⟩))
      (regs 0x86 0x4C 0 0 0 0 0) ⟨false, false, true, false⟩ 0x0101 = true := by
  decide

/-- V-ALU-3 -/
theorem test_adr_carry :
    leaves (step (start 0x0100 [0x82] []
      (regs 0x80 0 0x80 0 0 0 0) ⟨false, false, false, false⟩))
      (regs 0 0 0x80 0 0 0 0) ⟨true, true, false, true⟩ 0x0101 = true := by
  decide

/-- V-ALU-5 -/
theorem test_adm :
    leaves (step (start 0x0100 [0x87] [(0x0BFE, 0x7F)]
      (regs 1 0 0 0 0 0x0B 0xFE) ⟨false, false, false, false⟩))
      (regs 0x80 0 0 0 0 0x0B 0xFE) ⟨false, false, true, false⟩ 0x0101 = true := by
  decide

/-- V-ALU-6 -/
theorem test_adi :
    leaves (step (start 0x0100 [0x04, 0x08] []
      (regs 2 0 0 0 0 0 0) ⟨false, false, false, false⟩))
      (regs 0x0A 0 0 0 0 0 0) ⟨false, false, false, true⟩ 0x0102 = true := by
  decide

/-- V-ALU-7 -/
theorem test_acr :
    leaves (step (start 0x0100 [0x89] []
      (regs 0xFF 0 0 0 0 0 0) ⟨true, false, false, false⟩))
      (regs 0 0 0 0 0 0 0) ⟨true, true, false, true⟩ 0x0101 = true := by
  decide

/-- V-ALU-9 -/
theorem test_acr_a :
    leaves (step (start 0x0100 [0x88] []
      (regs 0x80 0 0 0 0 0 0) ⟨true, false, false, false⟩))
      (regs 1 0 0 0 0 0 0) ⟨true, false, false, false⟩ 0x0101 = true := by
  decide

/-- V-ALU-10 -/
theorem test_acm :
    leaves (step (start 0x0100 [0x8F] [(0x0803, 0x0E)]
      (regs 0x12 0 0 0 0 8 3) ⟨true, false, false, false⟩))
      (regs 0x21 0 0 0 0 8 3) ⟨false, false, false, true⟩ 0x0101 = true := by
  decide

/-- V-ALU-11 -/
theorem test_aci :
    leaves (step (start 0x0100 [0x0C, 0x00] []
      (regs 0xFF 0 0 0 0 0 0) ⟨true, false, false, false⟩))
      (regs 0 0 0 0 0 0 0) ⟨true, true, false, true⟩ 0x0102 = true := by
  decide

/-- V-ALU-12 -/
theorem test_sur :
    leaves (step (start 0x0100 [0x91] []
      (regs 5 6 0 0 0 0 0) ⟨false, false, false, false⟩))
      (regs 0xFF 6 0 0 0 0 0) ⟨true, false, true, true⟩ 0x0101 = true := by
  decide

/-- V-ALU-13 -/
theorem test_sur_noborrow :
    leaves (step (start 0x0100 [0x91] []
      (regs 6 5 0 0 0 0 0) ⟨true, false, false, false⟩))
      (regs 1 5 0 0 0 0 0) ⟨false, false, false, false⟩ 0x0101 = true := by
  decide

/-- V-ALU-15 -/
theorem test_sum :
    leaves (step (start 0x0100 [0x97] [(0x0800, 1)]
      (regs 0 0 0 0 0 8 0) ⟨false, false, false, false⟩))
      (regs 0xFF 0 0 0 0 8 0) ⟨true, false, true, true⟩ 0x0101 = true := by
  decide

/-- V-ALU-18 -/
theorem test_sui :
    leaves (step (start 0x0100 [0x14, 0x80] []
      (regs 0x41 0 0 0 0 0 0) ⟨false, false, false, false⟩))
      (regs 0xC1 0 0 0 0 0 0) ⟨true, false, true, false⟩ 0x0102 = true := by
  decide

/-- V-ALU-19 -/
theorem test_sbr :
    leaves (step (start 0x0100 [0x99] []
      (regs 0 0xFF 0 0 0 0 0) ⟨true, false, false, false⟩))
      (regs 0 0xFF 0 0 0 0 0) ⟨true, true, false, true⟩ 0x0101 = true := by
  decide

/-- V-ALU-20 -/
theorem test_sbr_noborrow :
    leaves (step (start 0x0100 [0x99] []
      (regs 0x10 1 0 0 0 0 0) ⟨true, false, false, false⟩))
      (regs 0x0E 1 0 0 0 0 0) ⟨false, false, false, false⟩ 0x0101 = true := by
  decide

/-- V-ALU-22 -/
theorem test_sbm :
    leaves (step (start 0x0100 [0x9F] [(0x0801, 0x0E)]
      (regs 0x21 0 0 0 0 8 1) ⟨false, false, false, false⟩))
      (regs 0x13 0 0 0 0 8 1) ⟨false, false, false, false⟩ 0x0101 = true := by
  decide

/-- V-ALU-23 -/
theorem test_sbi :
    leaves (step (start 0x0100 [0x1C, 0x01] []
      (regs 0 0 0 0 0 0 0) ⟨false, false, false, false⟩))
      (regs 0xFF 0 0 0 0 0 0) ⟨true, false, true, true⟩ 0x0102 = true := by
  decide

/-- V-ALU-24: the carry is cleared -/
theorem test_ndr :
    leaves (step (start 0x0100 [0xA1] []
      (regs 0xF0 0x3C 0 0 0 0 0) ⟨true, false, false, false⟩))
      (regs 0x30 0x3C 0 0 0 0 0) ⟨false, false, false, true⟩ 0x0101 = true := by
  decide

/-- V-ALU-26 -/
theorem test_ndm :
    leaves (step (start 0x0100 [0xA7] [(0x0802, 0x80)]
      (regs 0xFF 0 0 0 0 8 2) ⟨false, false, false, false⟩))
      (regs 0x80 0 0 0 0 8 2) ⟨false, false, true, false⟩ 0x0101 = true := by
  decide

/-- V-ALU-27 -/
theorem test_ndi :
    leaves (step (start 0x0100 [0x24, 0x7F] []
      (regs 0xC1 0 0 0 0 0 0) ⟨true, false, false, false⟩))
      (regs 0x41 0 0 0 0 0 0) ⟨false, false, false, true⟩ 0x0102 = true := by
  decide

/-- V-ALU-28 -/
theorem test_xrr :
    leaves (step (start 0x0100 [0xA8] []
      (regs 0x9D 0 0 0 0 0 0) ⟨true, false, true, false⟩))
      (regs 0 0 0 0 0 0 0) ⟨false, true, false, true⟩ 0x0101 = true := by
  decide

/-- V-ALU-30 -/
theorem test_xrm :
    leaves (step (start 0x0100 [0xAF] [(0x0805, 0x0F)]
      (regs 0xFF 0 0 0 0 8 5) ⟨false, false, false, false⟩))
      (regs 0xF0 0 0 0 0 8 5) ⟨false, false, true, true⟩ 0x0101 = true := by
  decide

/-- V-ALU-31 -/
theorem test_xri :
    leaves (step (start 0x0100 [0x2C, 0xFF] []
      (regs 0 0 0 0 0 0 0) ⟨true, false, false, false⟩))
      (regs 0xFF 0 0 0 0 0 0) ⟨false, false, true, true⟩ 0x0102 = true := by
  decide

/-- V-ALU-32 -/
theorem test_orr :
    leaves (step (start 0x0100 [0xB1] []
      (regs 0x50 5 0 0 0 0 0) ⟨true, false, false, false⟩))
      (regs 0x55 5 0 0 0 0 0) ⟨false, false, false, true⟩ 0x0101 = true := by
  decide

/-- V-ALU-34 -/
theorem test_orm :
    leaves (step (start 0x0100 [0xB7] [(0x0806, 0x80)]
      (regs 1 0 0 0 0 8 6) ⟨false, false, false, false⟩))
      (regs 0x81 0 0 0 0 8 6) ⟨false, false, true, true⟩ 0x0101 = true := by
  decide

/-- V-ALU-35 -/
theorem test_ori :
    leaves (step (start 0x0100 [0x34, 0x01] []
      (regs 0xFE 0 0 0 0 0 0) ⟨false, false, false, false⟩))
      (regs 0xFF 0 0 0 0 0 0) ⟨false, false, true, true⟩ 0x0102 = true := by
  decide

/-- V-ALU-37 -/
theorem test_cpr :
    leaves (step (start 0x0100 [0xB9] []
      (regs 0x10 0x20 0 0 0 0 0) ⟨false, false, false, false⟩))
      (regs 0x10 0x20 0 0 0 0 0) ⟨true, false, true, true⟩ 0x0101 = true := by
  decide

/-- V-ALU-41 -/
theorem test_cpm :
    leaves (step (start 0x0100 [0xBF] [(0x0800, 0xFF)]
      (regs 0xFF 0 0 0 0 8 0) ⟨false, false, false, false⟩))
      (regs 0xFF 0 0 0 0 8 0) ⟨false, true, false, true⟩ 0x0101 = true := by
  decide

/-- V-ALU-43 -/
theorem test_cpi :
    leaves (step (start 0x0100 [0x3C, 0xDC] []
      (regs 0xC9 0 0 0 0 0 0) ⟨false, false, false, false⟩))
      (regs 0xC9 0 0 0 0 0 0) ⟨true, false, true, true⟩ 0x0102 = true := by
  decide

/-- V-ROT-1 -/
theorem test_rlc :
    leaves (step (start 0x0100 [0x02] []
      (regs 0x80 0 0 0 0 0 0) ⟨false, false, false, false⟩))
      (regs 1 0 0 0 0 0 0) ⟨true, false, false, false⟩ 0x0101 = true := by
  decide

/-- V-ROT-3: z, s and p are not written -/
theorem test_rlc_flags :
    leaves (step (start 0x0100 [0x02] []
      (regs 0 0 0 0 0 0 0) ⟨true, false, true, false⟩))
      (regs 0 0 0 0 0 0 0) ⟨false, false, true, false⟩ 0x0101 = true := by
  decide

/-- V-ROT-4 -/
theorem test_rrc :
    leaves (step (start 0x0100 [0x0A] []
      (regs 1 0 0 0 0 0 0) ⟨false, false, false, false⟩))
      (regs 0x80 0 0 0 0 0 0) ⟨true, false, false, false⟩ 0x0101 = true := by
  decide

/-- V-ROT-6 -/
theorem test_ral :
    leaves (step (start 0x0100 [0x12] []
      (regs 0x80 0 0 0 0 0 0) ⟨false, false, false, false⟩))
      (regs 0 0 0 0 0 0 0) ⟨true, false, false, false⟩ 0x0101 = true := by
  decide

/-- V-ROT-7 -/
theorem test_ral_carry :
    leaves (step (start 0x0100 [0x12] []
      (regs 0 0 0 0 0 0 0) ⟨true, false, false, false⟩))
      (regs 1 0 0 0 0 0 0) ⟨false, false, false, false⟩ 0x0101 = true := by
  decide

/-- V-ROT-9 -/
theorem test_rar :
    leaves (step (start 0x0100 [0x1A] []
      (regs 1 0 0 0 0 0 0) ⟨false, false, false, false⟩))
      (regs 0 0 0 0 0 0 0) ⟨true, false, false, false⟩ 0x0101 = true := by
  decide

/-- V-ROT-10 -/
theorem test_rar_carry :
    leaves (step (start 0x0100 [0x1A] []
      (regs 0 0 0 0 0 0 0) ⟨true, false, false, false⟩))
      (regs 0x80 0 0 0 0 0 0) ⟨false, false, false, false⟩ 0x0101 = true := by
  decide

/-- V-CTL-2: bits 7 and 6 of B3 are ignored -/
theorem test_jmp :
    leaves (step (start 0x0100 [0x44, 0x34, 0xF2] []
      (regs 0 0 0 0 0 0 0) ⟨false, false, false, false⟩))
      (regs 0 0 0 0 0 0 0) ⟨false, false, false, false⟩ 0x3234 = true := by
  decide

/-- V-CTL-53: opcode at 0x3FFF, operands at 0 and 1 -/
theorem test_jmp_top :
    leaves (step (start 0x3FFF [0x44, 0x23, 0x01] []
      (regs 0 0 0 0 0 0 0) ⟨false, false, false, false⟩))
      (regs 0 0 0 0 0 0 0) ⟨false, false, false, false⟩ 0x0123 = true := by
  decide

/-- V-CTL-9 -/
theorem test_jfc :
    leaves (step (start 0x0100 [0x48, 0x00, 0x03] []
      (regs 0 0 0 0 0 0 0) ⟨false, false, false, false⟩))
      (regs 0 0 0 0 0 0 0) ⟨false, false, false, false⟩ 0x0300 = true := by
  decide

/-- V-CTL-6 -/
theorem test_jfc_not :
    leaves (step (start 0x0100 [0x40, 0x00, 0x03] []
      (regs 0 0 0 0 0 0 0) ⟨true, false, false, false⟩))
      (regs 0 0 0 0 0 0 0) ⟨true, false, false, false⟩ 0x0103 = true := by
  decide

/-- V-CTL-8 -/
theorem test_jtc :
    leaves (step (start 0x0100 [0x60, 0x00, 0x03] []
      (regs 0 0 0 0 0 0 0) ⟨true, false, false, false⟩))
      (regs 0 0 0 0 0 0 0) ⟨true, false, false, false⟩ 0x0300 = true := by
  decide

/-- V-CTL-11 -/
theorem test_jtc_not :
    leaves (step (start 0x0100 [0x68, 0x00, 0x03] []
      (regs 0 0 0 0 0 0 0) ⟨false, false, false, false⟩))
      (regs 0 0 0 0 0 0 0) ⟨false, false, false, false⟩ 0x0103 = true := by
  decide

/-- V-CTL-52: PC goes from 0x3FFF to 0 -/
theorem test_nop_top :
    leaves (step (start 0x3FFF [0xC0] []
      (regs 1 0 0 0 0 0 0) ⟨false, false, false, false⟩))
      (regs 1 0 0 0 0 0 0) ⟨false, false, false, false⟩ 0x0000 = true := by
  decide

/-- V-IDX-10: the byte stored is all of H -/
theorem test_lmr :
    next (step
      (start 0x0100 [0xFD] [] (regs 0 0 0 0 0 0xC9 0x34) ⟨false, false, false, false⟩))
      (fun t => decide (t.memByte 0x0934 = 0xC9 ∧ t.regs.h = 0xC9)) = true := by
  decide

/-- V-IDX-12: the highest address -/
theorem test_lmr_top :
    next (step
      (start 0x0100 [0xF9] [] (regs 0 0x42 0 0 0 0x3F 0xFF) ⟨false, false, false, false⟩))
      (fun t => decide (t.memByte 0x3FFF = 0x42)) = true := by
  decide

/-- V-IDX-16: the write lands on its own operand byte, after it was fetched -/
theorem test_lmi :
    next (step
      (start 0x0100 [0x3E, 0xAA] [] (regs 0 0 0 0 0 1 1) ⟨false, false, false, false⟩))
      (fun t => decide (t.memByte 0x0101 = 0xAA ∧ t.pc = 0x0102)) = true := by
  decide

/-- V-CTL-54: the return address is 0 -/
theorem test_cal :
    next (step
      (start 0x3FFD [0x46, 0x00, 0x02] [] (regs 0 0 0 0 0 0 0) ⟨false, false, false, false⟩))
      (fun t => decide (t.pc = 0x0200 ∧ t.sp = 1 ∧ stackGet t.stack 0 = 0)) = true := by
  decide

/-- V-CTL-29: not taken -/
theorem test_cfc :
    next (step
      (start 0x0100 [0x5A, 0x00, 0x02] [] (regs 0 0 0 0 0 0 0) ⟨false, false, false, true⟩))
      (fun t => decide (t.pc = 0x0103 ∧ t.sp = 0)) = true := by
  decide

/-- V-CTL-30: taken -/
theorem test_ctc :
    next (step
      (start 0x0100 [0x7A, 0x00, 0x02] [] (regs 0 0 0 0 0 0 0) ⟨false, false, false, true⟩))
      (fun t => decide (t.pc = 0x0200 ∧ t.sp = 1 ∧ stackGet t.stack 0 = 0x0103)) = true := by
  decide

/-- V-CTL-33: the pointer goes from 0 to 7 -/
theorem test_ret :
    next (step
      (start 0x0100 [0x07] [] (regs 0 0 0 0 0 0 0) ⟨false, false, false, false⟩))
      (fun t => decide (t.pc = 0 ∧ t.sp = 7 ∧ stackGet t.stack 0 = 0x0101)) = true := by
  decide

/-- V-CTL-38: not taken -/
theorem test_rfc :
    next (step
      (start 0x0300 [0x13] [] (regs 0 0 0 0 0 0 0) ⟨false, false, true, false⟩))
      (fun t => decide (t.pc = 0x0301 ∧ t.sp = 0)) = true := by
  decide

/-- V-CTL-43 with the pointer at 0: taken -/
theorem test_rtc :
    next (step
      (start 0x0300 [0x2B] [] (regs 0 0 0 0 0 0 0) ⟨false, true, false, false⟩))
      (fun t => decide (t.pc = 0 ∧ t.sp = 7)) = true := by
  decide

/-- V-CTL-51 -/
theorem test_rst :
    next (step
      (start 0x0150 [0x3D] [] (regs 0 0 0 0 0 0 0) ⟨false, false, false, false⟩))
      (fun t => decide (t.pc = 0x0038 ∧ t.sp = 1 ∧ stackGet t.stack 0 = 0x0151)) = true := by
  decide

/-- V-IO-1 -/
theorem test_inp :
    next (step
      ({ start 0x0100 [0x41] [] (regs 0xEE 0 0 0 0 0 0) ⟨true, true, false, false⟩ with inputs := [0x10] }))
      (fun t => decide (t.regs.a = 0x10 ∧ t.flags = ⟨true, true, false, false⟩ ∧ t.inputs = [])) = true := by
  decide

/-- V-IO-14 -/
theorem test_out :
    next (step
      (start 0x0100 [0x7F] [] (regs 0xFF 0 0 0 0 0 0) ⟨true, false, false, false⟩))
      (fun t => decide (t.outputs = [(31, 0xFF)] ∧ t.flags.c = true)) = true := by
  decide

/-- V-HLT-1 -/
theorem test_hlt :
    next (step
      (start 0x0100 [0x00] [] (regs 0x12 0 0 0 0 0 0) ⟨true, false, false, false⟩))
      (fun t => decide (t.run = .stopped ∧ t.pc = 0x0101 ∧ t.regs.a = 0x12 ∧ t.flags.c = true)) = true := by
  decide

/-- V-HLT-3 -/
theorem test_hlt_ff :
    next (step
      (start 0x3FFF [0xFF] [] (regs 0 0 0 0 0 0 0) ⟨false, false, false, false⟩))
      (fun t => decide (t.run = .stopped ∧ t.pc = 0)) = true := by
  decide

/-! Undefined first bytes: V-UND-1 to V-UND-6 and V-INT-11 -/

theorem test_undefined_22 :
    faults (step (start 0x0100 [0x22] [] (regs 0 0 0 0 0 0 0) ⟨false, false, false, false⟩))
      0x22 (.memory 0x0100) = true := by
  decide

theorem test_undefined_2A :
    faults (step (start 0x0100 [0x2A] [] (regs 0 0 0 0 0 0 0) ⟨false, false, false, false⟩))
      0x2A (.memory 0x0100) = true := by
  decide

theorem test_undefined_32 :
    faults (step (start 0x0100 [0x32] [] (regs 0 0 0 0 0 0 0) ⟨false, false, false, false⟩))
      0x32 (.memory 0x0100) = true := by
  decide

theorem test_undefined_3A :
    faults (step (start 0x0100 [0x3A] [] (regs 0 0 0 0 0 0 0) ⟨false, false, false, false⟩))
      0x3A (.memory 0x0100) = true := by
  decide

theorem test_undefined_38 :
    faults (step (start 0x0100 [0x38] [] (regs 0 0 0 0 0 0 0) ⟨false, false, false, false⟩))
      0x38 (.memory 0x0100) = true := by
  decide

theorem test_undefined_39 :
    faults (step (start 0x0100 [0x39] [] (regs 0 0 0 0 0 0 0) ⟨false, false, false, false⟩))
      0x39 (.memory 0x0100) = true := by
  decide

/-- V-INT-11 -/
theorem test_undefined_jammed :
    faults (step ((start 0x0200 [] [] (regs 0 0 0 0 0 0 0) noFlags).jamNext 0x38 0 0)) 0x38
      .jammed = true := by
  decide

/-! Interrupts -/

/-- The machine of the interrupt vectors: memory at PC, one byte jammed. -/
def jamAt (pc : Addr) (code : List Byte) (run : RunState) (b : Byte) : State :=
  { start pc code [] (regs 0 0 0 0 0 0 0) noFlags with
    run := run
    intSource := [some ⟨.supplied b, .memoryAtPc, .memoryAtPc⟩] }

/-- V-INT-1: RST 8 saves the un-advanced PC. -/
theorem test_jam_rst :
    next (step (jamAt 0x0123 [0xC8] .running 0x0D)) (fun t => decide (t.pc = 8 ∧ t.sp = 1 ∧
      stackGet t.stack 0 = 0x0123)) = true := by
  decide

/-- V-INT-2: LAA releases a STOPPED processor and PC stays. -/
theorem test_jam_nop :
    next (step (jamAt 0x0021 [0x08] .stopped 0xC0)) (fun t => decide (t.pc = 0x0021 ∧
      t.run = .running)) = true := by
  decide

/-- V-INT-5: a jammed HLT stops with PC un-advanced. -/
theorem test_jam_hlt :
    next (step (jamAt 0x0200 [0xC8] .running 0x00)) (fun t => decide (t.pc = 0x0200 ∧
      t.run = .stopped)) = true := by
  decide

/-- V-INT-8: a jammed CAL saves the interrupted PC plus 2. -/
theorem test_jam_cal :
    next (step (jamAt 0x0200 [0x40, 0x00] .running 0x46)) (fun t => decide (t.pc = 0x0040 ∧
      stackGet t.stack 0 = 0x0202)) = true := by
  decide

/-- V-HLT-4: nothing happens while STOPPED. -/
theorem test_stopped :
    next (step { start 0x0100 [0xC8] [] (regs 5 0 0 0 0 0 0) noFlags with run := .stopped })
      (fun t => decide (t.pc = 0x0100 ∧ t.run = .stopped ∧ t.events = [])) = true := by
  decide

/-- Example 2 of 70_reset_and_hazards.md R253: RST 24 jammed after power-up. -/
theorem test_first_interrupt :
    next (step (State.reset.withFetchWord 8 0x1D)) (fun t => decide (t.pc = 0x0018 ∧ t.sp = 1 ∧
      t.powerUpFF = false ∧ t.events = [.interruptFetch 0 0x1D])) = true := by
  decide

/-- The first instruction after power-up may bring its operand bytes with it (log 23). -/
theorem test_withFetchWord_jmp :
    next (step (State.reset.withFetchWord 24 0x01CE44)) (fun t => decide (t.pc = 0x01CE)) =
      true := by
  decide

/-! The bus, the assembler's words and the board -/

/-- V-IO-1: the flags at T4 are 1010 with c = 1, z = 1, s = 0, p = 0. -/
theorem test_flag_nibble : flagNibble ⟨true, true, false, false⟩ = 0b1010 := by decide

/-- 20_memory.md R54: the opcode of OUT 12B stands on the bus at T2, the accumulator at T1. -/
theorem test_pins_out : (BusEvent.output 10 0x01).pins = ⟨false, .pcc, 0x01, 0x55, .idle, none⟩ := by
  decide

/-- The tape word of LHD (30_encoding.md R104). -/
theorem test_tape_word : tapeWord 0xEB = ['B', 'P', 'P', 'P', 'N', 'P', 'N', 'P', 'P', 'F'] := by decide

/-- 45_machine.md R200: STOPPED is shown, 110, until an interrupt is requested. -/
theorem test_stopped_lines :
    State.reset.lines = 0b110 ∧ State.reset.shown.2 = .floating ∧
      (jamAt 0 [] .stopped 0xC0).lines = 0b011 := by
  decide

/-- A board as shipped around a processor: J1-29 at +5 V, 5A on input port 0, latches of zeros. -/
def board (cpu : State) (latch only : Bool) (box : BoxB) (port : Byte) : Sim801 where
  cpu := cpu
  intLatch := latch
  stoppedOnly := only
  boxB := box
  intPort := port
  inputLines := (Vector.replicate 8 0).set 0 0x5A
  dataTrue := true
  addedInputs := 0
  addedOutputs := 0
  outputPowerUp := Vector.replicate 24 0
  flagPowerUp := noFlags
  startLevel := true

/-- 60_exceptions.md R239: output port 2 of the board shows the complement. -/
theorem test_board_output :
    (board { State.reset with events := [.output 10 0x01] } false false .afterLatch 0xC0).outputPins
      2 = some 0xFE := by
  decide

/-- 60_exceptions.md R237: with the jumper set a running processor is not interrupted. -/
theorem test_board_jumper :
    (board { State.reset with run := .running } true true .afterLatch 0xC0).intLine = false := by
  decide

/-! Witnesses: states and operands that meet the hypotheses of the obligations -/

/-- A small running machine: RST 56 (3D) at PC, HL on a RAM byte. -/
def small : State := start 0x0100 [0x3D] [] (regs 0x12 0 0 0 0 0xC8 0x10) noFlags

/-- The small machine with an absent byte at HL. -/
def bare : State := { small with memMap := [] }

/-- The small machine with ROM everywhere. -/
def romOnly : State := { small with memMap := [⟨0, 16384, .rom⟩] }

theorem witness_DecodeOfEncode_inr : (Instr.inr .b).WellFormed := by decide

theorem witness_DecodeOfEncode_out : (Instr.out 8).WellFormed ∧ (Instr.out 31).WellFormed := by
  decide

theorem witness_DontCareBitsIgnored : lengthOf 0x40 = 3 ∧ lengthOf 0x7E = 3 := by decide

/-- A three-byte instruction across the top of memory. -/
theorem witness_StepRunsStoredInstruction :
    let s := start 0x3FFE [0x44, 0x23, 0x01] [] (regs 0 0 0 0 0 0 0) noFlags
    s.run = .running ∧ NoRequest s ∧ FetchBrings s 0x44 [0x23, 0x01] ∧
      decode [0x44, 0x23, 0x01] = .ok (.jmp 0x0123, []) := by
  refine ⟨rfl, rfl, ⟨?_, ?_, ?_, trivial⟩, rfl⟩ <;> simp only [Brings] <;> decide

/-- LAI in ROM at 0000 with its operand byte taken where nothing answers. -/
theorem witness_StepRunsStoredInstruction_absent :
    let s := { start 0 [0x06] [] (regs 0 0 0 0 0 0 0) noFlags with memMap := [⟨0, 1, .rom⟩] }
    s.run = .running ∧ NoRequest s ∧ FetchBrings s 0x06 [Config.floatingByte 1] ∧
      decode [0x06, Config.floatingByte 1] = .ok (.lri .a (Config.floatingByte 1), []) :=
  ⟨rfl, rfl, ⟨rfl, rfl, trivial⟩, rfl⟩

/-- One operand byte from memory, one supplied. -/
theorem witness_StepRunsJammedInstruction :
    let s := { jamAt 0x3FFF [0x40] .stopped 0x46 with
      intSource := [some ⟨.supplied 0x46, .memoryAtPc, .supplied 0x02⟩] }
    s.intSource = some ⟨.supplied 0x46, .memoryAtPc, .supplied 0x02⟩ :: [] ∧
      JamBrings s ⟨.supplied 0x46, .memoryAtPc, .supplied 0x02⟩ 0x46 [0x40, 0x02] ∧
      decode [0x46, 0x40, 0x02] = .ok (.cal 0x0240, []) := by
  refine ⟨rfl, ⟨rfl, ?_, rfl, trivial⟩, rfl⟩
  simp only [Brings]
  decide

/-- A jammed CAL whose operand bytes are taken where nothing answers. -/
theorem witness_StepRunsJammedInstruction_absent :
    let s := { jamAt 0 [] .stopped 0x46 with memMap := [] }
    s.intSource = some ⟨.supplied 0x46, .memoryAtPc, .memoryAtPc⟩ :: [] ∧
      JamBrings s ⟨.supplied 0x46, .memoryAtPc, .memoryAtPc⟩ 0x46
        [Config.floatingByte 1, Config.floatingByte 2] ∧
      ∃ t, decode [0x46, Config.floatingByte 1, Config.floatingByte 2] = .ok (.cal t, []) :=
  ⟨rfl, ⟨rfl, rfl, rfl, trivial⟩, _, rfl⟩

theorem witness_RunStateChanges_released :
    ∃ t, step (jamAt 0 [] .stopped 0xC0) = .next t ∧ (jamAt 0 [] .stopped 0xC0).run = .stopped ∧
      t.run = .running :=
  ⟨_, rfl, rfl, rfl⟩

theorem witness_RunStateChanges_halted :
    ∃ t, step (jamAt 0 [] .running 0xFF) = .next t ∧ (jamAt 0 [] .running 0xFF).run = .running ∧
      t.run = .stopped :=
  ⟨_, rfl, rfl, rfl⟩

theorem witness_RunStateChanges_stopped :
    State.reset.run = .stopped ∧ NoRequest State.reset :=
  ⟨rfl, rfl⟩

/-- Two quiet boundaries, then a request. -/
theorem witness_StoppedUntilInterrupted :
    let s := { State.reset with intSource := [none, none, some jamLaa] }
    s.run = .stopped ∧ QuietFor 2 s := by
  refine ⟨rfl, fun j hj => ?_⟩
  have h : j = 0 ∨ j = 1 := by omega
  rcases h with rfl | rfl <;> rfl

theorem witness_HeldLineNeverAdvances :
    let s := { small with intSource := [some jamLaa, some jamLaa, some jamLaa] }
    s.intSource.take 3 = List.replicate 3 (some jamLaa) :=
  rfl

theorem witness_JammedRestartReturns_lowest :
    (jamAt 0x3FFF [] .running 0x05).intSource = some ⟨.supplied ((0b00 : BitVec 2) ++
      (0 : BitVec 3) ++ (0b101 : BitVec 3)), .memoryAtPc, .memoryAtPc⟩ :: [] :=
  rfl

theorem witness_JammedRestartReturns_highest :
    (jamAt 0 [] .stopped 0x3D).intSource = some ⟨.supplied ((0b00 : BitVec 2) ++
      (7 : BitVec 3) ++ (0b101 : BitVec 3)), .memoryAtPc, .memoryAtPc⟩ :: [] :=
  rfl

/-- The reset state with LAA requested at the first boundary. -/
def released : State := { State.reset with intSource := [some (jamBytes 0xC0 0 0)] }

theorem witness_FirstActivityIsInterrupt :
    ∃ t, PoweredUp released ∧ Reaches released t ∧
      t.events.getLast? = some (.interruptFetch 0 0xC0) :=
  ⟨_, ⟨noFlags, 0, [], referenceMap, [some (jamBytes 0xC0 0 0)], [], rfl⟩,
    ⟨1, (runsTo_succ (k := 0) rfl).mpr rfl⟩, rfl⟩

theorem witness_StepKeepsInvariant : ∃ t, StepInv released ∧ step released = .next t := by
  refine ⟨_, ⟨rfl, fun _ => ⟨rfl, ?_, ?_, rfl, rfl⟩, ⟨fun _ => rfl, fun _ => rfl⟩, ?_, ?_, ?_⟩, rfl⟩
  · intro r; cases r <;> rfl
  · decide
  · intro h; cases h
  · intro e h; cases h
  · intro port v h; cases h

theorem witness_DefinedInstructionsComplete : (Instr.hltFF).isUndefined = false := rfl

/-- Each clause: a byte that is not one of the six, one that is, one jammed, none at all. -/
theorem witness_OnlyUndefinedBytesStop :
    (∃ i u, small.boundary = (some i, u) ∧ u.ir ∉ undefinedBytes ∧ u.irOrigin = .memory 0x0100) ∧
    (∃ i u, (start 0 [0x22] [] (regs 0 0 0 0 0 0 0) noFlags).boundary = (some i, u) ∧
      u.ir ∈ undefinedBytes) ∧
    (∃ i u j rest, (jamAt 0 [] .stopped 0x39).boundary = (some i, u) ∧ u.ir ∈ undefinedBytes ∧
      (jamAt 0 [] .stopped 0x39).intSource = some j :: rest) ∧
    ∃ u, State.reset.boundary = (none, u) :=
  ⟨⟨_, _, rfl, by decide, rfl⟩, ⟨_, _, rfl, by decide⟩, ⟨_, _, _, _, rfl, by decide, rfl⟩, _, rfl⟩

theorem witness_UndefinedBytesFault :
    (0x38 : Byte) ∈ undefinedBytes ∧ (0x3A : Byte) ∈ undefinedBytes := by
  decide

theorem witness_UndefinedFaultCarriesOrigin_stored :
    let s := start 0x3FFF [0x39] [] (regs 0 0 0 0 0 0 0) noFlags
    (0x39 : Byte) ∈ undefinedBytes ∧ s.run = .running ∧ NoRequest s ∧ s.busByte s.pc = 0x39 :=
  ⟨by decide, rfl, rfl, by decide⟩

theorem witness_UndefinedFaultCarriesOrigin_jammed :
    (0x22 : Byte) ∈ undefinedBytes ∧ (jamAt 0 [] .stopped 0x22).intSource =
      some ⟨.supplied 0x22, .memoryAtPc, .memoryAtPc⟩ :: [] :=
  ⟨by decide, rfl⟩

theorem witness_FlagsWrittenByTableOnly_carry :
    ∃ t, exec (.inr .b) small = .next t ∧ ¬ WritesCarry (.inr .b) := by
  refine ⟨_, rfl, ?_⟩
  rintro (⟨f, r, h⟩ | ⟨f, h⟩ | ⟨f, v, h⟩ | h | h | h | h) <;> first | cases h | (cases f <;> cases h)

theorem witness_FlagsWrittenByTableOnly_zsp :
    ∃ t, exec .ral small = .next t ∧ ¬ WritesZsp .ral := by
  refine ⟨_, rfl, ?_⟩
  rintro (⟨f, r, h⟩ | ⟨f, h⟩ | ⟨f, v, h⟩ | ⟨r, h⟩ | ⟨r, h⟩) <;>
    first | cases h | (cases f <;> cases h)

theorem witness_FlagsWrittenByTableOnly_logic :
    (∃ t, exec (AluFn.nd.onReg .a) small = .next t) ∧ (∃ t, exec AluFn.xr.onM small = .next t) ∧
      ∃ t, exec (AluFn.or.onByte 0xFF) small = .next t :=
  ⟨⟨_, rfl⟩, ⟨_, rfl⟩, ⟨_, rfl⟩⟩

/-- A store at 0x0810 leaves the address 0x0811 alone; LAB writes no memory. -/
theorem witness_MemoryWrittenAtHlOnly :
    (∃ t, exec (.lmr .a) small = .next t ∧ (0x0811 : Addr) ≠ small.hl) ∧
      ∃ t, exec (.lrr .a .b) small = .next t ∧ ¬ WritesMemory (.lrr .a .b) := by
  refine ⟨⟨_, rfl, by decide⟩, _, rfl, ?_⟩
  rintro (⟨r, h⟩ | ⟨v, h⟩) <;> cases h

/-- A store into ROM. -/
theorem witness_RomNeverChanges :
    let s := { romOnly with intSource := [some (jamBytes 0xF8 0 0)] }
    ∃ t, Reaches s t ∧ s.kindAt s.hl ≠ .ram :=
  ⟨_, ⟨1, (runsTo_succ (k := 0) rfl).mpr rfl⟩, by decide⟩

theorem witness_StackWrittenByControlOnly :
    ∃ t, exec .hlt small = .next t ∧ ¬ WritesStack .hlt := by
  refine ⟨_, rfl, ?_⟩
  rintro (⟨_, h⟩ | ⟨_, _, h⟩ | ⟨_, _, h⟩ | ⟨_, h⟩ | ⟨_, _, h⟩ | ⟨_, _, h⟩ | h | ⟨_, h⟩ | ⟨_, h⟩ |
    ⟨_, h⟩) <;> cases h

theorem witness_BusCyclesInOrder :
    ∃ u t, small.boundary = (some (.rst 7), u) ∧ exec (.rst 7) u = .next t :=
  ⟨_, _, rfl, rfl⟩

theorem witness_HighBitsOfHNeverSent :
    AddressesM (.lmr .l) ∧ AddressesM .cpm ∧
      (0x08 : Byte).extractLsb' 0 6 = small.regs.h.extractLsb' 0 6 :=
  ⟨.inr (.inr (.inr ⟨.l, by decide, rfl⟩)), .inl ⟨.cp, rfl⟩, by decide⟩

theorem witness_OutputsInProgramOrder :
    (∃ t, exec (.out 8) small = .next t) ∧
      ∃ t, exec (.inp 7) small = .next t ∧ ∀ port, (.inp 7 : Instr) ≠ .out port :=
  ⟨⟨_, rfl⟩, _, rfl, fun _ h => by cases h⟩

theorem witness_StoreSeenByNextFetch :
    let s := start 0x0810 [] [] (regs 0 0 0 0 0 0xC8 0x10) noFlags
    s.mem.wf = true ∧ s.kindAt s.hl = .ram ∧ s.pc = s.hl :=
  ⟨rfl, by decide, by decide⟩

theorem witness_SevenNestedCallsReturn : (List.replicate 7 (0x3FFF : Addr)).length ≤ 7 := by decide

theorem witness_EighthCallDestroysOldest : (List.replicate 7 (0x3FFF : Addr)).length = 7 := rfl

theorem witness_ReadOfMByKind_present : romOnly.kindAt romOnly.hl ≠ .absent := by decide

theorem witness_ReadOfMByKind_absent : bare.kindAt bare.hl = .absent := by decide

theorem witness_StoreToMemory_immediate :
    small.mem.wf = true ∧ small.kindAt small.hl = .ram ∧
      (Instr.lmi 7 = .lmi 7 ∨ ∃ r, Instr.lmi 7 = .lmr r ∧ 7 = small.readReg r) :=
  ⟨rfl, by decide, .inl rfl⟩

theorem witness_StoreToMemory_register :
    romOnly.mem.wf = true ∧ romOnly.kindAt romOnly.hl ≠ .ram ∧
      (Instr.lmr .h = .lmi 0xC8 ∨ ∃ r, Instr.lmr .h = .lmr r ∧ 0xC8 = romOnly.readReg r) :=
  ⟨rfl, by decide, .inr ⟨.h, rfl, rfl⟩⟩

theorem witness_IncrementAndDecrement : Reg.b ≠ .a ∧ Reg.l ≠ .a := by decide

theorem witness_ArithmeticOnRegister :
    ∀ f ∈ [AluFn.ad, .ac, .su, .sb], f = .ad ∨ f = .ac ∨ f = .su ∨ f = .sb := by
  decide

theorem witness_LogicAndCompareOnRegister :
    ∀ f ∈ [AluFn.nd, .xr, .or, .cp], f = .nd ∨ f = .xr ∨ f = .or ∨ f = .cp := by
  decide

theorem witness_CompareOrdersUnsigned (i : Instr) (h : i = .cpi 0xFF ∨ i = .cpr .h ∨ i = .cpm) :
    ∃ v, i = .cpi v ∨ (∃ r, i = .cpr r ∧ v = small.readReg r) ∨
      (i = .cpm ∧ v = small.busByte small.hl) := by
  rcases h with h | h | h
  · exact ⟨0xFF, .inl h⟩
  · exact ⟨_, .inr (.inl ⟨.h, h, rfl⟩)⟩
  · exact ⟨_, .inr (.inr ⟨h, rfl⟩)⟩

/-- A = 0x12: all four rotates have their hypothesis. -/
theorem witness_RotatesMoveOneBit :
    (0x24 = small.regs.a.toNat * 2 % 256 + small.regs.a.toNat / 128 ∧
        false = decide (128 ≤ small.regs.a.toNat)) ∧
      (0x09 = small.regs.a.toNat / 2 + small.regs.a.toNat % 2 * 128 ∧
        false = decide (small.regs.a.toNat % 2 = 1)) ∧
      0x24 = small.regs.a.toNat * 2 % 256 + small.flags.c.toNat ∧
      0x09 = small.regs.a.toNat / 2 + small.flags.c.toNat * 128 := by
  decide

theorem witness_InputLoadsA_scheduled :
    ({ small with inputs := [0x81] } : State).inputs = 0x81 :: [] ∧ small.inputs = [] :=
  ⟨rfl, rfl⟩

theorem witness_OutputShowsA : 8 ≤ (8 : BitVec 5).toNat ∧ 8 ≤ (31 : BitVec 5).toNat := by decide

theorem witness_PinsTellTheCycle :
    (BusEvent.output 31 0).pins.t2.extractLsb' 6 2 = 0b01 ∧
      (BusEvent.input 7 0 0 noFlags).pins.t2.extractLsb' 6 2 = 0b01 ∧
      (BusEvent.memWrite 0x3FFF 0).pins.t2.extractLsb' 6 2 = 0b11 ∧
      (BusEvent.operandFetch 0x3FFF 0).pins.t2.extractLsb' 6 2 = 0b10 ∧
      (BusEvent.interruptFetch 0x3FFF 0).pins.t2.extractLsb' 6 2 = 0b00 := by
  decide

theorem witness_StoppedIsShown :
    (State.reset.run = .stopped ∧ NoRequest State.reset) ∧
      (∃ t, exec .hlt small = .next t ∧ NoRequest t) ∧
      (jamAt 0 [] .stopped 0xC0).intSource = some ⟨.supplied 0xC0, .memoryAtPc, .memoryAtPc⟩ :: [] :=
  ⟨⟨rfl, rfl⟩, ⟨_, rfl, rfl⟩, rfl⟩

/-- A request lost before the latch, and one that no box B holds back. -/
theorem witness_BoardInterruptLatch_request :
    let lost := board small false true .beforeLatch 0xC0
    let kept := board small false true .afterLatch 0xC0
    (lost.boxB = .beforeLatch ∧ lost.stoppedOnly = true ∧ lost.cpu.run = .running) ∧
      kept.boxB = .afterLatch :=
  ⟨⟨rfl, rfl, rfl⟩, rfl⟩

/-- The latch set, the jumper set, the processor STOPPED, CAL at the port with its operand bytes in
memory. -/
theorem witness_BoardInterruptLatch_taken :
    let b := board (start 0 [0x40, 0x02] [] (regs 0 0 0 0 0 0 0) noFlags).halt true true .afterLatch
      0x46
    b.intLatch = true ∧ (b.stoppedOnly = false ∨ b.cpu.run = .stopped) ∧
      JamBrings b.cpu ⟨.supplied b.intPort, .memoryAtPc, .memoryAtPc⟩ b.intPort [0x40, 0x02] ∧
      decode [b.intPort, 0x40, 0x02] = .ok (.cal 0x0240, []) ∧
      ∃ t, exec (.cal 0x0240) (jammed (boardCpu b (.cal 0x0240)) b.intPort [0x40, 0x02]) =
        .next t := by
  refine ⟨rfl, .inr rfl, ⟨rfl, ?_, ?_, trivial⟩, rfl, _, rfl⟩ <;> simp only [Brings] <;> decide

/-- The latch set, the jumper set, the processor running: RST 56 at PC is executed. -/
theorem witness_BoardInterruptLatch_held :
    let b := board small true true .afterLatch 0xC0
    (b.intLatch = false ∨ b.stoppedOnly = true) ∧ b.cpu.run = .running ∧
      FetchBrings b.cpu 0x3D [] ∧ decode [0x3D] = .ok (.rst 7, []) ∧
      ∃ t, exec (.rst 7) (fetched (boardCpu b (.rst 7)) 0x3D []) = .next t := by
  refine ⟨.inr rfl, rfl, ⟨?_, trivial⟩, rfl, _, rfl⟩
  simp only [Brings]
  decide

/-- No request latched, the processor STOPPED. -/
theorem witness_BoardInterruptLatch_quiet :
    let b := board State.reset false false .afterLatch 0xC0
    b.intLatch = false ∧ b.cpu.run = .stopped :=
  ⟨rfl, rfl⟩

/-- The board's last own port and the first that is not fitted; OUT to a port, to none, no OUT, INP. -/
theorem witness_BoardOutputsComplement :
    (3 : Fin 24).val < 4 + (board small false false .afterLatch 0).addedOutputs ∧
      4 + (board small false false .afterLatch 0).addedOutputs ≤ (4 : Fin 24).val ∧
      small.outputs = [] ∧ (∃ t, exec (.out 8) small = .next t) ∧
      (∃ t, exec (.out 12) small = .next t) ∧ (∃ t, exec .hlt small = .next t) ∧
      ∃ t, exec (.inp 1) small = .next t :=
  ⟨by decide, by decide, rfl, ⟨_, rfl⟩, ⟨_, rfl⟩, ⟨_, rfl⟩, _, rfl⟩

/-- INP of the board's last own port, of the first that is not fitted, and with J1-29 low. -/
theorem witness_BoardInputPorts :
    let b := board (start 0 [0x43] [] (regs 0 0 0 0 0 0 0) noFlags) false false .afterLatch 0
    let c := board (start 0 [0x45] [] (regs 0 0 0 0 0 0 0) noFlags) false false .afterLatch 0
    b.intLatch = false ∧ b.cpu.run = .running ∧
      b.cpu.busByte b.cpu.pc = (0b0100 : BitVec 4) ++ (1 : BitVec 3) ++ (1 : BitVec 1) ∧
      (1 : BitVec 3).toNat < 2 + b.addedInputs ∧ b.dataTrue = true ∧
      c.cpu.busByte c.cpu.pc = (0b0100 : BitVec 4) ++ (2 : BitVec 3) ++ (1 : BitVec 1) ∧
      2 + c.addedInputs ≤ (2 : BitVec 3).toNat ∧ ({ b with dataTrue := false }).dataTrue = false := by
  refine ⟨rfl, rfl, ?_, ?_, rfl, ?_, ?_, rfl⟩ <;> decide

theorem witness_BoardTeletype :
    (board State.reset false true .beforeLatch 0xC0).cpu.run = .stopped ∧
      (board State.reset false true .beforeLatch 0xC0).intPort = 0xC0 ∧
      TeletypeBit.data true ≠ .start :=
  ⟨rfl, rfl, by decide⟩


end Sys2Proof.Tests
end

/-! PROOF of O29. Instructions executed one after another, and what calls and returns in a row do to
the address stack: calls in a row are pushes, returns in a row only move the pointer, and pushes
write no register but the ones just above the pointer. -/

namespace Sys2Proof.Claims

open Sys2Proof.Machine

/-! ### Sequences of instructions -/

/-- CAL is `Push` (43_control_transfer.md R174). -/
@[simp] theorem exec_cal (t : Addr) (s : State) : exec (.cal t) s = .next (s.push t) := rfl

/-- RET is `Pop` (43_control_transfer.md R177). -/
@[simp] theorem exec_ret (s : State) : exec .ret s = .next s.pop := rfl

theorem execAll_cons_of_next {i : Instr} {s t : State} (is : List Instr) (h : exec i s = .next t) :
    execAll (i :: is) s = execAll is t := by
  simp only [execAll, h]

theorem execAll_append_of_next {is js : List Instr} {s t : State} (h : execAll is s = .next t) :
    execAll (is ++ js) s = execAll js t := by
  induction is generalizing s with
  | nil => cases h; rfl
  | cons i is ih =>
    cases hi : exec i s with
    | next u =>
      rw [execAll_cons_of_next is hi] at h
      rw [List.cons_append, execAll_cons_of_next _ hi, ih h]
    | fault r => simp [execAll, hi] at h
    | refused r => simp [execAll, hi] at h

theorem execAll_calls (ts : List Addr) (s : State) :
    execAll (ts.map Instr.cal) s = .next (ts.foldl State.push s) := by
  induction ts generalizing s with
  | nil => rfl
  | cons t ts ih => exact ih (s.push t)

/-- Returns in a row copy nothing: they move the pointer, mod 8 (10_state.md R29; D3, log 2). -/
theorem execAll_returns (n : Nat) (s : State) :
    execAll (List.replicate n .ret) s = .next { s with sp := s.sp - BitVec.ofNat 3 n } := by
  induction n generalizing s with
  | zero => simp [execAll]
  | succ n ih =>
    have hsp : s.sp - 1 - BitVec.ofNat 3 n = s.sp - BitVec.ofNat 3 (n + 1) := by bv_omega
    rw [List.replicate_succ, execAll_cons_of_next _ (exec_ret s), ih, pop_sp, hsp]
    rfl

/-! ### Pushes in a row -/

@[simp] theorem pushes_regs (ts : List Addr) (s : State) :
    (ts.foldl State.push s).regs = s.regs := by
  induction ts generalizing s with
  | nil => rfl
  | cons t ts ih => exact ih (s.push t)

@[simp] theorem pushes_flags (ts : List Addr) (s : State) :
    (ts.foldl State.push s).flags = s.flags := by
  induction ts generalizing s with
  | nil => rfl
  | cons t ts ih => exact ih (s.push t)

theorem pushes_sp (ts : List Addr) (s : State) :
    (ts.foldl State.push s).sp = s.sp + BitVec.ofNat 3 ts.length := by
  induction ts generalizing s with
  | nil => simp
  | cons t ts ih =>
    rw [List.foldl_cons, ih, push_sp, List.length_cons]
    bv_omega

/-- Pushes write only as many registers above the pointer as there are pushes. The distance is
counted up from the first register written, mod 8, so that the pointer's own register stands at
distance 7 and is the last they reach. -/
theorem pushes_keep (ts : List Addr) (s : State) (k : StackPtr)
    (h : ts.length ≤ (k - (s.sp + 1)).toNat) :
    stackGet (ts.foldl State.push s).stack k = stackGet s.stack k := by
  induction ts generalizing s with
  | nil => rfl
  | cons t ts ih =>
    rw [List.length_cons] at h
    have hfar : ts.length ≤ (k - ((s.push t).sp + 1)).toNat := by
      rw [push_sp]
      bv_omega
    have hne : k ≠ s.sp + 1 := by
      rintro rfl
      simp at h
    obtain ⟨_, _, hkeep⟩ := push_spec s t
    exact (ih (s.push t) hfar).trans (hkeep k hne)

/-- Up to seven pushes leave the register that held PC before them. -/
theorem pushes_keep_return_address (ts : List Addr) (s : State) (h : ts.length ≤ 7) :
    stackGet (ts.foldl State.push s).stack s.sp = s.pc := by
  have hdist : (s.sp - (s.sp + 1)).toNat = 7 := by bv_omega
  exact pushes_keep ts s s.sp (hdist ▸ h)

/-! ### The obligation -/

/-- Settles O29: the calls are pushes, the returns move the pointer back to where it was, and the
register there still holds PC. -/
theorem sevenNestedCallsReturn : Obligations.SevenNestedCallsReturn := by
  intro ts s hlen
  have hsp : (ts.foldl State.push s).sp - BitVec.ofNat 3 ts.length = s.sp := by
    rw [pushes_sp, BitVec.add_sub_cancel]
  refine ⟨{ ts.foldl State.push s with sp := s.sp }, ?_, pushes_keep_return_address ts s hlen, rfl,
    pushes_regs ts s, pushes_flags ts s⟩
  rw [execAll_append_of_next (execAll_calls ts s), execAll_returns, hsp]

end Sys2Proof.Claims

/-! PROOF of O15. Turning the address stack and the pointer together commutes with every operation of
the model, and so with fetching, with every instruction, with a step and with a run. -/

namespace Sys2Proof.Claims

open Sys2Proof.Machine

/-! ### The address stack and its pointer -/

/-- The eight registers of the address stack turned by `k` places. -/
def turnedStack (k : StackPtr) (stk : Vector Addr 8) : Vector Addr 8 :=
  Vector.ofFn fun n : Fin 8 => stackGet stk (BitVec.ofFin n - k)

theorem turned_eq (k : StackPtr) (s : State) :
    turned k s = { s with sp := s.sp + k, stack := turnedStack k s.stack } := rfl

theorem stackGet_turnedStack (k j : StackPtr) (stk : Vector Addr 8) :
    stackGet (turnedStack k stk) j = stackGet stk (j - k) := by
  simp [stackGet, turnedStack]

/-- Writing a register and turning is turning and writing where it has gone. -/
theorem stackSet_turnedStack (k j : StackPtr) (stk : Vector Addr 8) (a : Addr) :
    stackSet (turnedStack k stk) (j + k) a = turnedStack k (stackSet stk j a) := by
  apply stack_ext
  intro i
  rw [stackGet_turnedStack]
  by_cases h : i = j + k
  · subst h
    simp
  · have h' : i - k ≠ j := fun e => h (by rw [← e, BitVec.sub_add_cancel])
    rw [stackGet_set_other _ _ h, stackGet_set_other _ _ h', stackGet_turnedStack]

section Turning

variable (k : StackPtr) (s : State)

@[simp] theorem turned_pc : (turned k s).pc = s.pc := by
  rw [State.pc, turned_eq, stackGet_turnedStack, BitVec.add_sub_cancel, State.pc]

theorem turned_setPc (a : Addr) : (turned k s).setPc a = turned k (s.setPc a) := by
  simp only [turned_eq, State.setPc, stackSet_turnedStack]

theorem turned_push (a : Addr) : (turned k s).push a = turned k (s.push a) := by
  have hsp : s.sp + k + 1 = s.sp + 1 + k := by bv_omega
  simp only [turned_eq, State.push, hsp, stackSet_turnedStack]

theorem turned_pop : (turned k s).pop = turned k s.pop := by
  have hsp : s.sp + k - 1 = s.sp - 1 + k := by bv_omega
  simp only [turned_eq, State.pop, hsp]

theorem turned_jumpIf (take : Bool) (a : Addr) :
    (turned k s).jumpIf take a = turned k (s.jumpIf take a) := by
  cases take with
  | true => exact turned_setPc k s a
  | false => rfl

theorem turned_callIf (take : Bool) (a : Addr) :
    (turned k s).callIf take a = turned k (s.callIf take a) := by
  cases take with
  | true => exact turned_push k s a
  | false => rfl

theorem turned_returnIf (take : Bool) :
    (turned k s).returnIf take = turned k (s.returnIf take) := by
  cases take with
  | true => exact turned_pop k s
  | false => rfl

/-! ### Fetching -/

theorem turned_sourceByte (src : BusSource) : (turned k s).sourceByte src = s.sourceByte src := by
  cases src with
  | memoryAtPc => exact congrArg s.busByte (turned_pc k s)
  | supplied b => rfl

theorem turned_advancePc : (turned k s).advancePc = turned k s.advancePc := by
  rw [State.advancePc, turned_pc, turned_setPc, State.advancePc]

theorem turned_fetchOpcode :
    (turned k s).fetchOpcode = (s.fetchOpcode.1, turned k s.fetchOpcode.2) := by
  unfold State.fetchOpcode
  rw [turned_pc]
  exact congrArg (Prod.mk (s.busByte s.pc)) (turned_advancePc k { s with
    ir := s.busByte s.pc
    irOrigin := .memory s.pc
    events := .opcodeFetch s.pc (s.busByte s.pc) :: s.events })

theorem turned_fetchOperand (src : BusSource) :
    (turned k s).fetchOperand src = ((s.fetchOperand src).1, turned k (s.fetchOperand src).2) := by
  unfold State.fetchOperand
  rw [turned_sourceByte, turned_pc]
  exact congrArg (Prod.mk (s.sourceByte src))
    (turned_advancePc k (s.record (.operandFetch s.pc (s.sourceByte src))))

theorem turned_fetchInterrupt (j : Jam) :
    (turned k s).fetchInterrupt j = ((s.fetchInterrupt j).1, turned k (s.fetchInterrupt j).2) := by
  unfold State.fetchInterrupt
  rw [turned_sourceByte, turned_pc]
  rfl

theorem turned_fetchRest (b : Byte) (src2 src3 : BusSource) :
    (turned k s).fetchRest b src2 src3 =
      ((s.fetchRest b src2 src3).1, turned k (s.fetchRest b src2 src3).2) := by
  unfold State.fetchRest
  split
  · simp only [turned_fetchOperand]
  · simp only [turned_fetchOperand]
  · rfl

theorem turned_fetchInstr :
    (turned k s).fetchInstr = (s.fetchInstr.1, turned k s.fetchInstr.2) := by
  unfold State.fetchInstr
  rw [turned_fetchOpcode]
  exact turned_fetchRest k s.fetchOpcode.2 _ _ _

theorem turned_fetchJammed (j : Jam) :
    (turned k s).fetchJammed j = ((s.fetchJammed j).1, turned k (s.fetchJammed j).2) := by
  unfold State.fetchJammed
  rw [turned_fetchInterrupt]
  exact turned_fetchRest k (s.fetchInterrupt j).2 _ _ _

theorem turned_interruptAnswer :
    (turned k s).interruptAnswer = (s.interruptAnswer.1, turned k s.interruptAnswer.2) := by
  obtain ⟨regs, flags, stack, sp, run, ir, org, ff, mem, map, events, src, ins⟩ := s
  cases src <;> rfl

/-- The boundary hands on the same instruction, and the state turned. -/
theorem turned_boundary : (turned k s).boundary = (s.boundary.1, turned k s.boundary.2) := by
  unfold State.boundary
  rw [turned_interruptAnswer]
  obtain ⟨answer, u⟩ := s.interruptAnswer
  cases answer with
  | some j =>
    dsimp only
    rw [turned_fetchJammed]
  | none =>
    have hrun : (turned k u).run = u.run := rfl
    dsimp only
    rw [turned_fetchInstr, hrun]
    cases u.run <;> rfl

/-! ### Executing, steps and runs -/

/-- Only the control group looks at the address stack; what the others read and write is not
turned. -/
theorem turned_exec (i : Instr) : exec i (turned k s) = mapNext (turned k) (exec i s) := by
  cases i
  case jmp t => exact congrArg _ (turned_jumpIf k s true t)
  case jfc c t => exact congrArg _ (turned_jumpIf k s (!s.flags.cond c) t)
  case jtc c t => exact congrArg _ (turned_jumpIf k s (s.flags.cond c) t)
  case cal t => exact congrArg _ (turned_callIf k s true t)
  case cfc c t => exact congrArg _ (turned_callIf k s (!s.flags.cond c) t)
  case ctc c t => exact congrArg _ (turned_callIf k s (s.flags.cond c) t)
  case ret => exact congrArg _ (turned_returnIf k s true)
  case rfc c => exact congrArg _ (turned_returnIf k s (!s.flags.cond c))
  case rtc c => exact congrArg _ (turned_returnIf k s (s.flags.cond c))
  case rst a => exact congrArg _ (turned_push k s (restartTarget a))
  all_goals rfl

theorem turned_step : step (turned k s) = mapNext (turned k) (step s) := by
  unfold step
  rw [turned_boundary]
  obtain ⟨i, u⟩ := s.boundary
  cases i with
  | none => rfl
  | some i => exact turned_exec k u i

end Turning

/-! ### The obligation -/

/-- Settles O15: a step commutes with turning, so a run does, by induction on its length. -/
theorem pointerUnobservable : Obligations.PointerUnobservable := by
  intro k n s
  induction n generalizing s with
  | zero => rfl
  | succ n ih =>
    have hstep : core.step (turned k s) = mapNext (turned k) (core.step s) := turned_step k s
    have hrun (u : State) := Host.Core.run.eq_2 core u n
    rw [hrun (turned k s), hrun s, hstep]
    cases core.step s with
    | next t => exact ih t
    | fault r => rfl
    | refused r => rfl

end Sys2Proof.Claims

/-! SUPPORT for O7 and O14. What the decoder can and cannot give: terms that stand for an
instruction, and a HLT only for the bytes 00, 01 and FF (30_encoding.md R91, R92, R95). -/

namespace Sys2Proof.Claims

open Sys2Proof.Machine

/-- The two rows of the table that stop the processor (45_machine.md R200). -/
def isHalt (i : Instr) : Bool := decide (i = .hlt ∨ i = .hltFF)

/-- What a first byte may decode to: a term that stands for an instruction, a HLT only by its codes
(30_encoding.md R92, R95). -/
def DecodesSoundly (b : Byte) (i : Instr) : Prop :=
  i.WellFormed ∧ (isHalt i = true → b = 0x00 ∨ b = 0x01 ∨ b = 0xFF)

/-- A term that stands for an instruction other than HLT; any first byte may decode to it. -/
def isPlain (i : Instr) : Bool := i.wellFormed && !isHalt i

theorem decodesSoundly_of_isPlain {i : Instr} (b : Byte) (h : isPlain i = true) :
    DecodesSoundly b i := by
  simp only [isPlain, Bool.and_eq_true, Bool.not_eq_true'] at h
  obtain ⟨hwf, hhalt⟩ := h
  exact ⟨hwf, fun e => absurd e (by simp [hhalt])⟩

/-- A first byte is made of its three fields (30_encoding.md R81). -/
theorem pack_fields (b : Byte) : pack (classField b) (midField b) (lowField b) = b := by
  revert b
  decide

/-! ### The columns of the table -/

theorem aluRegister_isPlain (ppp : BitVec 3) (r : Reg) : isPlain (aluRegister ppp r) = true := by
  unfold aluRegister
  split <;> rfl

theorem aluMemory_isPlain (ppp : BitVec 3) : isPlain (aluMemory ppp) = true := by
  unfold aluMemory
  split <;> rfl

theorem aluImmediate_isPlain (ppp : BitVec 3) (v : Byte) :
    isPlain (aluImmediate ppp v) = true := by
  unfold aluImmediate
  split <;> rfl

theorem decodeRotate_isPlain (mid : BitVec 3) : isPlain (decodeRotate mid) = true := by
  revert mid
  decide

/-- INr, or HLT at the code of A. -/
theorem decodeIncrement_fields (ddd : BitVec 3) :
    (decodeIncrement ddd).WellFormed ∧ (isHalt (decodeIncrement ddd) = true → ddd = 0) := by
  revert ddd
  decide

/-- DCr, or HLT at the code of A. -/
theorem decodeDecrement_fields (ddd : BitVec 3) :
    (decodeDecrement ddd).WellFormed ∧ (isHalt (decodeDecrement ddd) = true → ddd = 0) := by
  revert ddd
  decide

/-- Only 111 names no register (10_state.md R21). -/
theorem regOfCode_eq_none {code : BitVec 3} (h : Reg.ofCode code = none) : code = 7 := by
  revert code
  decide

/-- An output port number is RRMMM with RR not 00, so at least 8 (30_encoding.md R89). -/
theorem outputPort_ge (b : Byte) (h : b.extractLsb' 4 2 ≠ 0) : 8 ≤ (b.extractLsb' 1 5).toNat := by
  have hr : (b.extractLsb' 4 2).toNat ≠ 0 := fun e => h (BitVec.eq_of_toNat_eq e)
  simp only [BitVec.extractLsb'_toNat, Nat.shiftRight_eq_div_pow] at hr ⊢
  omega

/-! ### The four classes -/

theorem decodeClass00_sound {b : Byte} (b2 : Byte) (hcls : classField b = 0) :
    DecodesSoundly b (decodeClass00 b b2) := by
  have hb : pack 0 (midField b) (lowField b) = b := hcls ▸ pack_fields b
  unfold decodeClass00
  split
  · next hl =>
    obtain ⟨hwf, hhalt⟩ := decodeIncrement_fields (midField b)
    have hlow : lowField b = 0 := BitVec.eq_of_toNat_eq hl
    exact ⟨hwf, fun h => .inl (by rw [← hb, hhalt h, hlow]; rfl)⟩
  · next hl =>
    obtain ⟨hwf, hhalt⟩ := decodeDecrement_fields (midField b)
    have hlow : lowField b = 1 := BitVec.eq_of_toNat_eq hl
    exact ⟨hwf, fun h => .inr (.inl (by rw [← hb, hhalt h, hlow]; rfl))⟩
  · exact decodesSoundly_of_isPlain b (decodeRotate_isPlain _)
  · split <;> exact decodesSoundly_of_isPlain b rfl
  · exact decodesSoundly_of_isPlain b (aluImmediate_isPlain _ _)
  · exact decodesSoundly_of_isPlain b rfl
  · split <;> exact decodesSoundly_of_isPlain b rfl
  · exact decodesSoundly_of_isPlain b rfl

theorem decodeClass01_isPlain (b b2 b3 : Byte) : isPlain (decodeClass01 b b2 b3) = true := by
  unfold decodeClass01
  split
  · split
    · rfl
    · next h => simpa [isPlain, isHalt, Instr.wellFormed] using outputPort_ge b h
  · split
    · split <;> rfl
    · split <;> rfl
    · rfl
    · rfl

theorem decodeClass10_isPlain (b : Byte) : isPlain (decodeClass10 b) = true := by
  unfold decodeClass10
  split
  · exact aluRegister_isPlain _ _
  · exact aluMemory_isPlain _

theorem decodeClass11_sound {b : Byte} (hcls : classField b = 3) :
    DecodesSoundly b (decodeClass11 b) := by
  unfold decodeClass11
  split
  · next hm hl =>
    refine ⟨rfl, fun _ => .inr (.inr ?_)⟩
    rw [← pack_fields b, hcls, regOfCode_eq_none hm, regOfCode_eq_none hl]
    rfl
  all_goals exact decodesSoundly_of_isPlain b rfl

/-! ### The decoder -/

theorem decodeBytes_sound (b b2 b3 : Byte) : DecodesSoundly b (decodeBytes b b2 b3) := by
  unfold decodeBytes
  split
  · next h => exact decodeClass00_sound b2 (BitVec.eq_of_toNat_eq h)
  · exact decodesSoundly_of_isPlain b (decodeClass01_isPlain b b2 b3)
  · exact decodesSoundly_of_isPlain b (decodeClass10_isPlain b)
  · next h0 h1 h2 =>
    have hlt : (classField b).toNat < 4 := (classField b).isLt
    have hne : (classField b).toNat ≠ 0 ∧ (classField b).toNat ≠ 1 ∧ (classField b).toNat ≠ 2 :=
      ⟨h0, h1, h2⟩
    have hcls : (classField b).toNat = 3 := by omega
    exact decodeClass11_sound (BitVec.eq_of_toNat_eq hcls)

theorem decodeBytes_wellFormed (b b2 b3 : Byte) : (decodeBytes b b2 b3).WellFormed :=
  (decodeBytes_sound b b2 b3).1

/-- Only the codes 00, 01 and FF stop the processor (45_machine.md R200). -/
theorem decodeBytes_isHalt {b b2 b3 : Byte} (h : isHalt (decodeBytes b b2 b3) = true) :
    b = 0x00 ∨ b = 0x01 ∨ b = 0xFF :=
  (decodeBytes_sound b b2 b3).2 h

end Sys2Proof.Claims

/-! SUPPORT for O7, O20 and O23. What an instruction does to the state, said once: which shared
operation it ends in. -/

namespace Sys2Proof.Claims

open Sys2Proof.Machine

/-- The accumulator group in its three forms (30_encoding.md R86). -/
def IsAlu (i : Instr) : Prop :=
  (∃ f r, i = AluFn.onReg f r) ∨ (∃ f, i = AluFn.onM f) ∨ ∃ f v, i = AluFn.onByte f v

theorem isAlu_onReg (f : AluFn) (r : Reg) : IsAlu (f.onReg r) := .inl ⟨f, r, rfl⟩

theorem isAlu_onM (f : AluFn) : IsAlu f.onM := .inr (.inl ⟨f, rfl⟩)

theorem isAlu_onByte (f : AluFn) (v : Byte) : IsAlu (f.onByte v) := .inr (.inr ⟨f, v, rfl⟩)

/-- The four rotates (42_rotate.md R160). -/
def IsRotate (i : Instr) : Prop := i = .rlc ∨ i = .rrc ∨ i = .ral ∨ i = .rar

/-- INr and DCr (40_index_register.md R116, R117). -/
def IsCount (i : Instr) : Prop := (∃ r, i = .inr r) ∨ ∃ r, i = .dcr r

/-- The state in which an instruction has its operand: as it was, or after the cycle that read M or
the input port. -/
inductive OperandTaken (s : State) : State → Prop where
  | register : OperandTaken s s
  | memory : OperandTaken s s.readM.2
  | input (port : BitVec 3) : OperandTaken s (s.ioIn port).2

/-- Taking an operand leaves flags, address stack and run state. -/
theorem OperandTaken.frame {s u : State} (h : OperandTaken s u) :
    u.flags = s.flags ∧ u.stack = s.stack ∧ u.sp = s.sp ∧ u.run = s.run := by
  cases h <;> exact ⟨rfl, rfl, rfl, rfl⟩

/-- What an instruction can leave, by the shared operation it ends in. -/
inductive Effect (s : State) (i : Instr) : State → Prop where
  | halted (hi : isHalt i = true) : Effect s i s.halt
  | accumulated {u : State} (hi : IsAlu i) (hu : OperandTaken s u) (o : AluOut) :
      Effect s i (u.accumulate o)
  | compared {u : State} (hi : IsAlu i) (hu : OperandTaken s u) (o : AluOut) :
      Effect s i (u.compareWith o)
  | rotated (hi : IsRotate i) (v : Byte) (c : Bool) : Effect s i (s.rotateTo v c)
  | counted (hi : IsCount i) (r : Reg) (v : Byte) : Effect s i (s.countTo r v)
  | loaded {u : State} (hu : OperandTaken s u) (r : Reg) (v : Byte) : Effect s i (u.writeReg r v)
  | stored (v : Byte) : Effect s i (s.writeM v)
  | output (port : BitVec 5) : Effect s i (s.ioOut port)
  | jumped (hi : WritesStack i) (take : Bool) (t : Addr) : Effect s i (s.jumpIf take t)
  | called (hi : WritesStack i) (take : Bool) (t : Addr) : Effect s i (s.callIf take t)
  | returned (hi : WritesStack i) (take : Bool) : Effect s i (s.returnIf take)

/-- Every instruction that completes has one of these effects; the undefined ones never
complete. -/
theorem exec_effect {i : Instr} {s t : State} (h : exec i s = .next t) : Effect s i t := by
  cases i
  case undefined22 | undefined2A | undefined32 | undefined3A | undefined38 | undefined39 => cases h
  case hlt | hltFF => cases h; exact .halted rfl
  case adr r => cases h; exact .accumulated (isAlu_onReg .ad r) .register _
  case acr r => cases h; exact .accumulated (isAlu_onReg .ac r) .register _
  case sur r => cases h; exact .accumulated (isAlu_onReg .su r) .register _
  case sbr r => cases h; exact .accumulated (isAlu_onReg .sb r) .register _
  case ndr r => cases h; exact .accumulated (isAlu_onReg .nd r) .register _
  case xrr r => cases h; exact .accumulated (isAlu_onReg .xr r) .register _
  case orr r => cases h; exact .accumulated (isAlu_onReg .or r) .register _
  case cpr r => cases h; exact .compared (isAlu_onReg .cp r) .register _
  case adm => cases h; exact .accumulated (isAlu_onM .ad) .memory _
  case acm => cases h; exact .accumulated (isAlu_onM .ac) .memory _
  case sum => cases h; exact .accumulated (isAlu_onM .su) .memory _
  case sbm => cases h; exact .accumulated (isAlu_onM .sb) .memory _
  case ndm => cases h; exact .accumulated (isAlu_onM .nd) .memory _
  case xrm => cases h; exact .accumulated (isAlu_onM .xr) .memory _
  case orm => cases h; exact .accumulated (isAlu_onM .or) .memory _
  case cpm => cases h; exact .compared (isAlu_onM .cp) .memory _
  case adi v => cases h; exact .accumulated (isAlu_onByte .ad v) .register _
  case aci v => cases h; exact .accumulated (isAlu_onByte .ac v) .register _
  case sui v => cases h; exact .accumulated (isAlu_onByte .su v) .register _
  case sbi v => cases h; exact .accumulated (isAlu_onByte .sb v) .register _
  case ndi v => cases h; exact .accumulated (isAlu_onByte .nd v) .register _
  case xri v => cases h; exact .accumulated (isAlu_onByte .xr v) .register _
  case ori v => cases h; exact .accumulated (isAlu_onByte .or v) .register _
  case cpi v => cases h; exact .compared (isAlu_onByte .cp v) .register _
  case rlc | rrc | ral | rar => cases h; exact .rotated (by simp [IsRotate]) _ _
  case inr r | dcr r => cases h; exact .counted (by simp [IsCount]) _ _
  case lri r v | lrr r v => cases h; exact .loaded .register _ _
  case lrm r => cases h; exact .loaded .memory _ _
  case inp port => cases h; exact .loaded (.input port) _ _
  case lmi v | lmr r => cases h; exact .stored _
  case out port => cases h; exact .output port
  case jmp a | jfc c a | jtc c a => cases h; exact .jumped (by simp [WritesStack]) _ _
  case cal a | cfc c a | ctc c a => cases h; exact .called (by simp [WritesStack]) _ _
  case rst a => cases h; exact .called (by simp [WritesStack]) true _
  case ret | rfc c | rtc c => cases h; exact .returned (by simp [WritesStack]) _

/-! ### Which fields an effect reaches -/

/-- HLT alone changes the run state (10_state.md R37). -/
theorem exec_run {i : Instr} {s t : State} (h : exec i s = .next t) :
    t.run = s.run ∨ isHalt i = true := by
  cases exec_effect h with
  | halted hi => exact .inr hi
  | accumulated _ hu | compared _ hu | loaded hu =>
    obtain ⟨_, _, _, hrun⟩ := hu.frame
    exact .inl hrun
  | jumped _ take | called _ take | returned _ take => exact .inl (by cases take <;> rfl)
  | rotated | counted | stored | output => exact .inl rfl

/-- The rows of the flag table (10_state.md R33): all four flags, the carry alone, z, s and p, or
none. -/
theorem exec_flags {i : Instr} {s t : State} (h : exec i s = .next t) :
    IsAlu i ∨ (IsRotate i ∧ ∃ c, t.flags = { s.flags with c := c }) ∨
      (IsCount i ∧ ∃ v, t.flags = s.flags.setZSP v) ∨ t.flags = s.flags := by
  cases exec_effect h with
  | accumulated hi | compared hi => exact .inl hi
  | rotated hi v c => exact .inr (.inl ⟨hi, c, rfl⟩)
  | counted hi r v => exact .inr (.inr (.inl ⟨hi, v, rfl⟩))
  | loaded hu =>
    obtain ⟨hflags, _⟩ := hu.frame
    exact .inr (.inr (.inr hflags))
  | jumped _ take | called _ take | returned _ take =>
    exact .inr (.inr (.inr (by cases take <;> rfl)))
  | halted | stored | output => exact .inr (.inr (.inr rfl))

/-- The control group alone reaches the address stack (10_state.md R25). -/
theorem exec_stack {i : Instr} {s t : State} (h : exec i s = .next t) :
    WritesStack i ∨ t.stack = s.stack ∧ t.sp = s.sp := by
  cases exec_effect h with
  | jumped hi | called hi | returned hi => exact .inl hi
  | accumulated _ hu | compared _ hu | loaded hu =>
    obtain ⟨_, hstack, hsp, _⟩ := hu.frame
    exact .inr ⟨hstack, hsp⟩
  | halted | rotated | counted | stored | output => exact .inr ⟨rfl, rfl⟩

end Sys2Proof.Claims

/-! PROOF of O20 and O23, from what an instruction's effect reaches. -/

namespace Sys2Proof.Claims

open Sys2Proof.Machine

theorem writesCarry_of_isAlu {i : Instr} (h : IsAlu i) : WritesCarry i := by
  rcases h with h | h | h
  · exact .inl h
  · exact .inr (.inl h)
  · exact .inr (.inr (.inl h))

theorem writesZsp_of_isAlu {i : Instr} (h : IsAlu i) : WritesZsp i := by
  rcases h with h | h | h
  · exact .inl h
  · exact .inr (.inl h)
  · exact .inr (.inr (.inl h))

theorem writesCarry_of_isRotate {i : Instr} (h : IsRotate i) : WritesCarry i :=
  .inr (.inr (.inr h))

theorem writesZsp_of_isCount {i : Instr} (h : IsCount i) : WritesZsp i :=
  .inr (.inr (.inr h))

theorem exec_keeps_carry {i : Instr} {s t : State} (h : exec i s = .next t)
    (hi : ¬ WritesCarry i) : t.flags.c = s.flags.c := by
  rcases exec_flags h with ha | ⟨hr, _⟩ | ⟨_, v, hf⟩ | hf
  · exact absurd (writesCarry_of_isAlu ha) hi
  · exact absurd (writesCarry_of_isRotate hr) hi
  · rw [hf]; rfl
  · rw [hf]

theorem exec_keeps_zsp {i : Instr} {s t : State} (h : exec i s = .next t)
    (hi : ¬ WritesZsp i) :
    t.flags.z = s.flags.z ∧ t.flags.s = s.flags.s ∧ t.flags.p = s.flags.p := by
  rcases exec_flags h with ha | ⟨_, c, hf⟩ | ⟨hc, _⟩ | hf
  · exact absurd (writesZsp_of_isAlu ha) hi
  · rw [hf]; exact ⟨rfl, rfl, rfl⟩
  · exact absurd (writesZsp_of_isCount hc) hi
  · rw [hf]; exact ⟨rfl, rfl, rfl⟩

/-- AND, exclusive OR and OR clear the carry, whatever their operand (41_accumulator_alu.md R125 to
R127). -/
theorem exec_logic_clears_carry {f : AluFn} {i : Instr} {s t : State} (h : exec i s = .next t)
    (hf : f = .nd ∨ f = .xr ∨ f = .or)
    (hi : (∃ r, i = f.onReg r) ∨ i = f.onM ∨ ∃ v, i = f.onByte v) : t.flags.c = false := by
  obtain ⟨r, rfl⟩ | rfl | ⟨v, rfl⟩ := hi
  all_goals obtain rfl | rfl | rfl := hf
  all_goals cases h; rfl

/-- Settles O20, clause by clause. -/
theorem flagsWrittenByTableOnly : Obligations.FlagsWrittenByTableOnly := by
  intro i s t h
  exact ⟨exec_keeps_carry h, exec_keeps_zsp h, fun _ => exec_logic_clears_carry h⟩

/-- Settles O23. -/
theorem stackWrittenByControlOnly : Obligations.StackWrittenByControlOnly := by
  intro i s t h hi
  exact (exec_stack h).resolve_left hi

end Sys2Proof.Claims

/-! PROOF of O7 and O14. What a fetch can hand on, and the invariant in the form it has once the
power-up flip-flop is reset, which fetches and instructions keep each on their own. -/

namespace Sys2Proof.Claims

open Sys2Proof.Machine

/-! ### Fetching -/

/-- Whatever the operand bytes are, the instruction is one of its first byte. -/
theorem fetchRest_decoded (s : State) (b : Byte) (src2 src3 : BusSource) :
    ∃ b2 b3, (s.fetchRest b src2 src3).1 = decodeBytes b b2 b3 := by
  unfold State.fetchRest
  split <;> exact ⟨_, _, rfl⟩

theorem fetchInstr_decoded (s : State) :
    ∃ b2 b3, s.fetchInstr.1 = decodeBytes s.fetchInstr.2.ir b2 b3 := by
  obtain ⟨_, _, _, _, hir, _⟩ :=
    fetchRest_frame s.fetchOpcode.2 s.fetchOpcode.1 .memoryAtPc .memoryAtPc
  have e : s.fetchInstr.2.ir = s.fetchOpcode.1 := hir
  rw [e]
  exact fetchRest_decoded s.fetchOpcode.2 _ _ _

theorem fetchJammed_decoded (s : State) (j : Jam) :
    ∃ b2 b3, (s.fetchJammed j).1 = decodeBytes (s.fetchJammed j).2.ir b2 b3 := by
  obtain ⟨_, _, _, _, hir, _⟩ :=
    fetchRest_frame (s.fetchInterrupt j).2 (s.fetchInterrupt j).1 j.b2 j.b3
  have e : (s.fetchJammed j).2.ir = (s.fetchInterrupt j).1 := hir
  rw [e]
  exact fetchRest_decoded (s.fetchInterrupt j).2 _ _ _

theorem fetchInstr_run (s : State) : s.fetchInstr.2.run = s.run := by
  obtain ⟨_, _, _, hrun, _⟩ :=
    fetchRest_frame s.fetchOpcode.2 s.fetchOpcode.1 .memoryAtPc .memoryAtPc
  exact hrun

/-- An interrupt cycle leaves the processor RUNNING (60_exceptions.md R214). -/
theorem fetchJammed_run (s : State) (j : Jam) : (s.fetchJammed j).2.run = .running := by
  obtain ⟨_, _, _, hrun, _⟩ :=
    fetchRest_frame (s.fetchInterrupt j).2 (s.fetchInterrupt j).1 j.b2 j.b3
  exact hrun

/-! ### The run state -/

/-- An instruction that stops a running processor was fetched by a code of HLT. -/
theorem exec_stops_by_halt {i : Instr} {u t : State} {b2 b3 : Byte} (h : exec i u = .next t)
    (hi : i = decodeBytes u.ir b2 b3) (hu : u.run = .running) (ht : t.run = .stopped) :
    t.ir = 0x00 ∨ t.ir = 0x01 ∨ t.ir = 0xFF := by
  obtain ⟨hir, _⟩ := exec_frame h
  rcases exec_run h with hrun | hhalt
  · rw [ht, hu] at hrun
    cases hrun
  · rw [hir]
    exact decodeBytes_isHalt (hi ▸ hhalt)

theorem step_released_by_interrupt {s t : State} (h : step s = .next t) (hs : s.run = .stopped)
    (ht : t.run = .running) : ∃ j rest, s.intSource = some j :: rest := by
  rcases step_cases s with ⟨j, rest, hj, _⟩ | ⟨_, _, e⟩ | ⟨_, hrun, _⟩
  · exact ⟨j, rest, hj⟩
  · rw [e] at h
    cases h
    rw [hs] at ht
    cases ht
  · rw [hs] at hrun
    cases hrun

theorem step_stopped_by_halt {s t : State} (h : step s = .next t) (hs : s.run = .running)
    (ht : t.run = .stopped) : t.ir = 0x00 ∨ t.ir = 0x01 ∨ t.ir = 0xFF := by
  rcases step_cases s with ⟨j, rest, _, e⟩ | ⟨_, hrun, _⟩ | ⟨_, _, e⟩
  · obtain ⟨_, _, hd⟩ := fetchJammed_decoded { s with intSource := rest } j
    exact exec_stops_by_halt (e ▸ h) hd (fetchJammed_run _ j) ht
  · rw [hs] at hrun
    cases hrun
  · obtain ⟨_, _, hd⟩ := fetchInstr_decoded { s with intSource := s.intSource.tail }
    exact exec_stops_by_halt (e ▸ h) hd ((fetchInstr_run _).trans hs) ht

theorem step_while_stopped {s : State} (hs : s.run = .stopped) (hq : NoRequest s) :
    step s = .next { s with intSource := s.intSource.tail } := by
  rcases step_cases s with ⟨j, rest, hj, _⟩ | ⟨_, _, e⟩ | ⟨_, hrun, _⟩
  · rw [NoRequest, hj] at hq
    cases hq
  · exact e
  · rw [hs] at hrun
    cases hrun

/-- Settles O7, clause by clause. -/
theorem runStateChanges : Obligations.RunStateChanges :=
  ⟨powerUp_run, fun _ _ => step_released_by_interrupt, fun _ _ => step_stopped_by_halt,
    fun _ => step_while_stopped, fun s => ⟨⟨s.halt, rfl, rfl⟩, s.halt, rfl, rfl⟩⟩

/-! ### The invariant once the processor has begun -/

/-- A history that began with an interrupt cycle at address 0 and shows no output below device 8. -/
structure SoundHistory (es : List BusEvent) : Prop where
  oldest : ∃ b, es.getLast? = some (.interruptFetch 0 b)
  ports : ∀ port v, BusEvent.output port v ∈ es → 8 ≤ port.toNat

/-- The first interrupt cycle after power-up. -/
theorem SoundHistory.first (b : Byte) : SoundHistory [.interruptFetch 0 b] where
  oldest := ⟨b, rfl⟩
  ports port v h := by simp at h

theorem SoundHistory.cons {e : BusEvent} {es : List BusEvent} (h : SoundHistory es)
    (he : ∀ port v, e = .output port v → 8 ≤ port.toNat) : SoundHistory (e :: es) where
  oldest := by
    obtain ⟨b, hb⟩ := h.oldest
    exact ⟨b, by rw [List.getLast?_cons, hb]; rfl⟩
  ports port v hmem := by
    rcases List.mem_cons.mp hmem with heq | hmem
    · exact he port v heq.symm
    · exact h.ports port v hmem

/-- The invariant of a processor whose power-up flip-flop is reset. -/
structure Begun (s : State) : Prop where
  memory : s.mem.wf = true
  flipFlop : s.powerUpFF = false
  origin : s.irOrigin ≠ .powerUp
  history : SoundHistory s.events

theorem Begun.stepInv {s : State} (h : Begun s) : StepInv s where
  memory := h.memory
  untouched hff := by simp [h.flipFlop] at hff
  forced := by simp [h.flipFlop, h.origin]
  begun _ hnil := by
    obtain ⟨b, hb⟩ := h.history.oldest
    simp [hnil] at hb
  oldest e he := by
    obtain ⟨b, hb⟩ := h.history.oldest
    exact ⟨b, Option.some.inj (he.symm.trans hb)⟩
  ports := h.history.ports

/-- Before the first interrupt nothing is in the history, after it the oldest cycle is one at
address 0 (70_reset_and_hazards.md R252). -/
theorem StepInv.soundHistory {s : State} (h : StepInv s) (hff : s.powerUpFF = false) :
    SoundHistory s.events where
  oldest := by
    cases hl : s.events.getLast? with
    | none => exact absurd (List.getLast?_eq_none_iff.mp hl) (h.begun hff)
    | some e =>
      obtain ⟨b, rfl⟩ := h.oldest e hl
      exact ⟨b, rfl⟩
  ports := h.ports

/-! ### What keeps it -/

theorem SoundHistory.fetchOperand {s : State} (h : SoundHistory s.events) (src : BusSource) :
    SoundHistory (s.fetchOperand src).2.events :=
  h.cons (by simp)

theorem SoundHistory.fetchRest {s : State} (h : SoundHistory s.events) (b : Byte)
    (src2 src3 : BusSource) : SoundHistory (s.fetchRest b src2 src3).2.events := by
  unfold State.fetchRest
  split
  · exact (h.fetchOperand src2).fetchOperand src3
  · exact h.fetchOperand src2
  · exact h

theorem Begun.fetchRest {s : State} (h : Begun s) (b : Byte) (src2 src3 : BusSource) :
    Begun (s.fetchRest b src2 src3).2 := by
  obtain ⟨_, _, _, _, _, horigin, hff, hmem, _⟩ := fetchRest_frame s b src2 src3
  exact ⟨hmem ▸ h.memory, hff ▸ h.flipFlop, horigin ▸ h.origin, h.history.fetchRest b src2 src3⟩

/-- The interrupt cycle of any state with the invariant: the first one after power-up sends out the
cleared PC. -/
theorem StepInv.soundHistory_interrupt {s : State} (h : StepInv s) (b : Byte) :
    SoundHistory (.interruptFetch s.pc b :: s.events) := by
  cases hff : s.powerUpFF with
  | true =>
    obtain ⟨_, _, hstack, _, hevents⟩ := h.untouched hff
    have hpc : s.pc = 0 := hstack s.sp
    rw [hpc, hevents]
    exact .first b
  | false => exact (h.soundHistory hff).cons (by simp)

theorem begun_fetchJammed {s : State} (h : StepInv s) (j : Jam) : Begun (s.fetchJammed j).2 := by
  have hfetch : Begun (s.fetchInterrupt j).2 :=
    ⟨h.memory, rfl, by simp, h.soundHistory_interrupt _⟩
  exact hfetch.fetchRest _ _ _

/-- A RUNNING processor has had its first interrupt (10_state.md R38). -/
theorem StepInv.flipFlop_of_running {s : State} (h : StepInv s) (hs : s.run = .running) :
    s.powerUpFF = false := by
  cases hff : s.powerUpFF with
  | true =>
    obtain ⟨hrun, _⟩ := h.untouched hff
    rw [hs] at hrun
    cases hrun
  | false => rfl

theorem begun_fetchInstr {s : State} (h : StepInv s) (hs : s.run = .running) :
    Begun s.fetchInstr.2 := by
  have hff : s.powerUpFF = false := h.flipFlop_of_running hs
  have hfetch : Begun s.fetchOpcode.2 :=
    ⟨h.memory, hff, by simp, (h.soundHistory hff).cons (by simp)⟩
  exact hfetch.fetchRest _ _ _

/-- A decoded instruction keeps it; OUT outputs to a device that the encoding admits
(30_encoding.md R89). -/
theorem Begun.exec_next {i : Instr} {u t : State} {b b2 b3 : Byte} (hu : Begun u)
    (hi : i = decodeBytes b b2 b3) (h : exec i u = .next t) : Begun t := by
  obtain ⟨_, horigin, hff, _, _, hmem, hevents⟩ := exec_frame h
  refine ⟨hmem hu.memory, hff ▸ hu.flipFlop, horigin ▸ hu.origin, ?_⟩
  rcases hevents with hsame | ⟨e, hnew, hout⟩
  · exact hsame ▸ hu.history
  · rw [hnew]
    refine hu.history.cons fun port v he => ?_
    have hwf : i.WellFormed := hi ▸ decodeBytes_wellFormed b b2 b3
    rw [hout port v he] at hwf
    exact of_decide_eq_true hwf

/-- What the environment will answer is no part of the invariant. -/
theorem StepInv.withIntSource {s : State} (h : StepInv s) (src : List (Option Jam)) :
    StepInv { s with intSource := src } :=
  ⟨h.memory, h.untouched, h.forced, h.begun, h.oldest, h.ports⟩

/-- Settles O14, by the cases of a step. -/
theorem stepKeepsInvariant : Obligations.StepKeepsInvariant := by
  intro s t hinv h
  rcases step_cases s with ⟨j, rest, _, e⟩ | ⟨_, _, e⟩ | ⟨_, hrun, e⟩
  · obtain ⟨_, _, hd⟩ := fetchJammed_decoded { s with intSource := rest } j
    exact ((begun_fetchJammed (hinv.withIntSource rest) j).exec_next hd (e ▸ h)).stepInv
  · rw [e] at h
    cases h
    exact hinv.withIntSource _
  · obtain ⟨_, _, hd⟩ := fetchInstr_decoded { s with intSource := s.intSource.tail }
    have hinv' := hinv.withIntSource s.intSource.tail
    exact ((begun_fetchInstr hinv' hrun).exec_next hd (e ▸ h)).stepInv

end Sys2Proof.Claims

/-! PROOF of O13. The invariant after power-up, where the history is empty. -/

namespace Sys2Proof.Claims

open Sys2Proof.Machine

theorem powerUp_untouched (f : Flags) (k : StackPtr) : Untouched (State.powerUp f k) := by
  refine ⟨rfl, fun r => ?_, fun j => ?_, rfl, rfl⟩
  · cases r <;> rfl
  · simp [stackGet]

theorem powerUp_stepInv (f : Flags) (k : StackPtr) : StepInv (State.powerUp f k) where
  memory := rfl
  untouched _ := powerUp_untouched f k
  forced := by simp
  begun hff := by simp at hff
  oldest e he := by simp at he
  ports port v h := by simp at h

/-- Settles O13: `State.reset` is one of the states after power-up. -/
theorem invariantAtPowerUp : Obligations.InvariantAtPowerUp :=
  ⟨powerUp_stepInv, powerUp_stepInv _ _⟩

end Sys2Proof.Claims

/-! PROOF of O26 and O34. The address of M, and what an instruction on M shows of it. -/

namespace Sys2Proof.Claims

open Sys2Proof.Machine

/-- Settles O34: H[5:0] stands above the eight bits of L. -/
theorem addressOfM : Obligations.AddressOfM := by
  intro s
  have hl : (s.readReg .l).toNat < 2 ^ 8 := (s.readReg .l).isLt
  rw [State.hl, BitVec.toNat_append, ← Nat.shiftLeft_add_eq_or_of_lt hl, Nat.shiftLeft_eq,
    BitVec.extractLsb'_toNat, Nat.shiftRight_zero]
  rfl

/-- The state with another byte in H. -/
def withH (s : State) (h : Byte) : State := { s with regs := { s.regs with h := h } }

theorem hl_withH {s : State} {h : Byte} (hlow : h.extractLsb' 0 6 = s.regs.h.extractLsb' 0 6) :
    (withH s h).hl = s.hl :=
  congrArg (· ++ s.readReg .l) hlow

theorem readReg_withH (s : State) (h : Byte) {r : Reg} (hr : r ≠ .h) :
    (withH s h).readReg r = s.readReg r := by
  cases r
  case h => exact absurd rfl hr
  all_goals rfl

/-- A read of M sends out the same address and takes the same byte. -/
theorem readM_events_withH {s : State} {h : Byte}
    (hlow : h.extractLsb' 0 6 = s.regs.h.extractLsb' 0 6) :
    (withH s h).readM.2.events = s.readM.2.events := by
  rw [readM_events, readM_events, hl_withH hlow]
  rfl

/-- A write of M sends out the same address and the byte given. -/
theorem writeM_events_withH {s : State} {h : Byte} (v : Byte)
    (hlow : h.extractLsb' 0 6 = s.regs.h.extractLsb' 0 6) :
    ((withH s h).writeM v).events = (s.writeM v).events := by
  rw [writeM_events, writeM_events, hl_withH hlow]
  rfl

theorem writeM_mem_withH {s : State} {h : Byte} (v : Byte)
    (hlow : h.extractLsb' 0 6 = s.regs.h.extractLsb' 0 6) :
    ((withH s h).writeM v).mem = (s.writeM v).mem := by
  rw [writeM_mem, writeM_mem, hl_withH hlow]
  rfl

/-- On the bus an ALU instruction on M is its one read. -/
theorem exec_onM_bus (f : AluFn) (s : State) :
    ∃ t, exec f.onM s = .next t ∧ t.events = s.readM.2.events ∧ t.mem = s.mem := by
  cases f <;> exact ⟨_, rfl, rfl, rfl⟩

theorem exec_lmr_withH (s : State) (h : Byte) {r : Reg} (hr : r ≠ .h) :
    exec (.lmr r) (withH s h) = .next ((withH s h).writeM (s.readReg r)) := by
  rw [← readReg_withH s h hr]
  rfl

/-- Settles O26: with the same low bits of H the address of M is the same, and no byte that is
written comes from H. -/
theorem highBitsOfHNeverSent : Obligations.HighBitsOfHNeverSent := by
  intro s h i hi hlow
  change ∃ t u, exec i s = .next t ∧ exec i (withH s h) = .next u ∧ t.events = u.events ∧
    t.mem = u.mem
  have hread := (readM_events_withH hlow).symm
  have hwrite (v : Byte) := (writeM_events_withH v hlow).symm
  have hmem (v : Byte) := (writeM_mem_withH v hlow).symm
  rcases hi with ⟨f, rfl⟩ | ⟨r, rfl⟩ | ⟨v, rfl⟩ | ⟨r, hr, rfl⟩
  · obtain ⟨t, ht, hte, htm⟩ := exec_onM_bus f s
    obtain ⟨u, hu, hue, hum⟩ := exec_onM_bus f (withH s h)
    exact ⟨t, u, ht, hu, hte.trans (hread.trans hue.symm), htm.trans hum.symm⟩
  · exact ⟨_, _, rfl, rfl, hread, rfl⟩
  · exact ⟨_, _, rfl, rfl, hwrite v, hmem v⟩
  · exact ⟨_, _, rfl, exec_lmr_withH s h hr, hwrite _, hmem _⟩

end Sys2Proof.Claims

/-! PROOF of O30. The eighth call moves the pointer all the way round, to the register that held the
first return address. -/

namespace Sys2Proof.Claims

open Sys2Proof.Machine

/-- The last of the pushes in a row sets PC. -/
theorem pushes_append_pc (ts : List Addr) (t : Addr) (s : State) :
    ((ts ++ [t]).foldl State.push s).pc = t := by
  rw [List.foldl_append]
  exact push_pc _ t

/-- Settles O30: eight pushes and eight pops each bring the pointer back to where it was, and a pop
copies nothing. -/
theorem eighthCallDestroysOldest : Obligations.EighthCallDestroysOldest := by
  intro ts t s hlen
  have hsp : ((ts ++ [t]).foldl State.push s).sp = s.sp := by
    rw [pushes_sp, List.length_append, hlen]
    simp
  have hpc := pushes_append_pc ts t s
  have hpops : ∀ u : State, execAll (List.replicate 8 .ret) u = .next u := by
    intro u
    rw [execAll_returns]
    simp
  exact ⟨_, _, execAll_calls _ s, hsp, hpc, hpops _, hsp, hpc⟩

end Sys2Proof.Claims

/-! SUPPORT for O21 and O24. The bus cycle that an instruction makes after its fetch, and what it
leaves of memory. -/

namespace Sys2Proof.Claims

open Sys2Proof.Machine

/-! ### The cycle of its own -/

/-- The bus cycle of an instruction beside those that fetch it (20_memory.md R64). -/
def ownCycle (i : Instr) (s : State) : Option BusEvent :=
  match i with
  | .adm | .acm | .sum | .sbm | .ndm | .xrm | .orm | .cpm | .lrm _ =>
    some (.memRead s.hl (s.busByte s.hl))
  | .lmr r => some (.memWrite s.hl (s.readReg r))
  | .lmi v => some (.memWrite s.hl v)
  | .inp port => some (.input port s.acc (s.inputData port) s.flags)
  | .out port => some (.output port s.acc)
  | _ => none

/-- A PCW cycle is one of LMr or LMI (20_memory.md R57). -/
theorem writesMemory_of_ownCycle {i : Instr} {s : State} {a : Addr} {v : Byte}
    (h : ownCycle i s = some (.memWrite a v)) : WritesMemory i := by
  cases i
  case lmr r => exact .inl ⟨r, rfl⟩
  case lmi w => exact .inr ⟨w, rfl⟩
  all_goals cases h

@[simp] theorem jumpIf_events (s : State) (take : Bool) (a : Addr) :
    (s.jumpIf take a).events = s.events := by
  cases take <;> rfl

@[simp] theorem callIf_events (s : State) (take : Bool) (a : Addr) :
    (s.callIf take a).events = s.events := by
  cases take <;> rfl

@[simp] theorem returnIf_events (s : State) (take : Bool) :
    (s.returnIf take).events = s.events := by
  cases take <;> rfl

/-- An instruction adds its own cycle to the history and nothing else. -/
theorem exec_events {i : Instr} {s t : State} (h : exec i s = .next t) :
    t.events = (ownCycle i s).toList ++ s.events := by
  cases i
  case undefined22 | undefined2A | undefined32 | undefined3A | undefined38 | undefined39 => cases h
  case jfc c a | jtc c a => cases h; exact jumpIf_events s _ a
  case cfc c a | ctc c a => cases h; exact callIf_events s _ a
  case rfc c | rtc c => cases h; exact returnIf_events s _
  all_goals cases h; rfl

/-! ### Memory -/

theorem OperandTaken.mem {s u : State} (h : OperandTaken s u) : u.mem = s.mem := by
  cases h <;> rfl

/-- Memory is as before, or one byte was written at HL. -/
theorem exec_mem {i : Instr} {s t : State} (h : exec i s = .next t) :
    t.mem = s.mem ∨ ∃ v, t = s.writeM v := by
  cases exec_effect h with
  | stored v => exact .inr ⟨v, rfl⟩
  | accumulated _ hu | compared _ hu | loaded hu => exact .inl hu.mem
  | jumped _ take | called _ take | returned _ take => exact .inl (by cases take <;> rfl)
  | halted | rotated | counted | output => exact .inl rfl

/-- A byte is written only in a PCW cycle, so by LMr or LMI alone. -/
theorem writesMemory_of_exec_writeM {i : Instr} {s : State} {v : Byte}
    (h : exec i s = .next (s.writeM v)) : WritesMemory i := by
  have hevents := exec_events h
  rw [writeM_events] at hevents
  cases hown : ownCycle i s with
  | none => simp [hown] at hevents
  | some e =>
    have he : BusEvent.memWrite s.hl v = e := by simpa [hown] using hevents
    exact writesMemory_of_ownCycle (he ▸ hown)

end Sys2Proof.Claims

/-! PROOF of O22. What a step leaves of the addresses without RAM. -/

namespace Sys2Proof.Claims

open Sys2Proof.Machine

/-- The memory map is the same, and what is not RAM holds what it held (20_memory.md R68). -/
def KeepsRom (s t : State) : Prop :=
  t.memMap = s.memMap ∧ ∀ a, s.kindAt a ≠ .ram → t.memByte a = s.memByte a

theorem KeepsRom.of_mem {s t : State} (hmap : t.memMap = s.memMap) (hmem : t.mem = s.mem) :
    KeepsRom s t :=
  ⟨hmap, fun a _ => congrArg (Memory.read · a.toNat) hmem⟩

theorem KeepsRom.trans {s u t : State} (hsu : KeepsRom s u) (hut : KeepsRom u t) :
    KeepsRom s t := by
  obtain ⟨hmap, hbyte⟩ := hsu
  obtain ⟨hmap', hbyte'⟩ := hut
  refine ⟨hmap'.trans hmap, fun a ha => ?_⟩
  have hkind : u.kindAt a = s.kindAt a := congrArg (kindIn · a.toNat) hmap
  exact (hbyte' a (hkind ▸ ha)).trans (hbyte a ha)

/-- A write cycle where no RAM answers is dropped (D10, log 12). -/
theorem storeInto_of_ne_ram {kind : MemKind} (h : kind ≠ .ram) (m : Memory) (a : Nat) (v : Byte) :
    storeInto kind m a v = m := by
  cases kind
  case ram => exact absurd rfl h
  all_goals rfl

theorem writeM_keepsRom (s : State) (v : Byte) : KeepsRom s (s.writeM v) := by
  refine ⟨rfl, fun a ha => ?_⟩
  by_cases heq : a = s.hl
  · subst heq
    exact congrArg (Memory.read · s.hl.toNat) (storeInto_of_ne_ram ha s.mem s.hl.toNat v)
  · exact storeInto_read_other heq

theorem exec_keepsRom {i : Instr} {s t : State} (h : exec i s = .next t) : KeepsRom s t := by
  rcases exec_mem h with hmem | ⟨v, rfl⟩
  · obtain ⟨_, _, _, hmap, _⟩ := exec_frame h
    exact .of_mem hmap hmem
  · exact writeM_keepsRom s v

theorem fetchJammed_keepsRom (s : State) (j : Jam) : KeepsRom s (s.fetchJammed j).2 := by
  obtain ⟨_, _, _, _, _, _, _, hmem, hmap, _⟩ :=
    fetchRest_frame (s.fetchInterrupt j).2 (s.fetchInterrupt j).1 j.b2 j.b3
  exact .of_mem hmap hmem

theorem fetchInstr_keepsRom (s : State) : KeepsRom s s.fetchInstr.2 := by
  obtain ⟨_, _, _, _, _, _, _, hmem, hmap, _⟩ :=
    fetchRest_frame s.fetchOpcode.2 s.fetchOpcode.1 .memoryAtPc .memoryAtPc
  exact .of_mem hmap hmem

/-- What the environment will answer is no part of memory. -/
theorem withIntSource_keepsRom (s : State) (src : List (Option Jam)) :
    KeepsRom s { s with intSource := src } :=
  .of_mem rfl rfl

theorem step_keepsRom {s t : State} (h : step s = .next t) : KeepsRom s t := by
  rcases step_cases s with ⟨j, rest, _, e⟩ | ⟨_, _, e⟩ | ⟨_, _, e⟩
  · exact ((withIntSource_keepsRom s rest).trans (fetchJammed_keepsRom _ j)).trans
      (exec_keepsRom (e ▸ h))
  · rw [e] at h
    cases h
    exact withIntSource_keepsRom s _
  · exact ((withIntSource_keepsRom s _).trans (fetchInstr_keepsRom _)).trans
      (exec_keepsRom (e ▸ h))

/-- Settles O22, by induction over the steps of the run. -/
theorem romNeverChanges : Obligations.RomNeverChanges := by
  intro s t h
  exact reaches_induction (P := KeepsRom) (fun _ => .of_mem rfl rfl)
    (fun _ _ _ hstep hrest => (step_keepsRom hstep).trans hrest) h

end Sys2Proof.Claims

/-! PROOF of O21, O28 and O33. Writes and reads of M. -/

namespace Sys2Proof.Claims

open Sys2Proof.Machine

/-- Settles O21: memory is as before, or LMr or LMI wrote it at HL. -/
theorem memoryWrittenAtHlOnly : Obligations.MemoryWrittenAtHlOnly := by
  intro i s t h
  obtain ⟨_, _, _, hmap, _⟩ := exec_frame h
  refine ⟨hmap, ?_⟩
  rcases exec_mem h with hmem | ⟨v, rfl⟩
  · exact ⟨fun _ => hmem, fun a _ => congrArg (Memory.read · a.toNat) hmem⟩
  · exact ⟨fun hi => absurd (writesMemory_of_exec_writeM h) hi, fun _ ha => storeInto_read_other ha⟩

/-- What is written to RAM at PC is the byte that the next opcode fetch takes (D7, log 5). -/
theorem writeM_fetchOpcode {s : State} (w : s.mem.wf = true) (hram : s.kindAt s.hl = .ram)
    (hpc : s.pc = s.hl) (v : Byte) : (s.writeM v).fetchOpcode.1 = v := by
  have hkind : (s.writeM v).kindAt s.hl ≠ .absent := by simp [hram]
  obtain ⟨hbyte, _⟩ := writeM_spec s v w
  calc (s.writeM v).fetchOpcode.1
    _ = (s.writeM v).busByte s.hl := congrArg (s.writeM v).busByte hpc
    _ = (s.writeM v).memByte s.hl := busByte_present _ hkind
    _ = v := by rw [hbyte, if_pos hram]

/-- Settles O28: LMr and LMI are writes of M. -/
theorem storeSeenByNextFetch : Obligations.StoreSeenByNextFetch := by
  intro s w hram hpc
  have hfetch := writeM_fetchOpcode w hram hpc
  exact ⟨fun r => ⟨_, rfl, hfetch (s.readReg r)⟩, fun v => ⟨_, rfl, hfetch v⟩⟩

/-- Settles O33: the register takes the byte on the bus. -/
theorem readOfMByKind : Obligations.ReadOfMByKind := by
  intro r s
  have hread : (s.readM.2.writeReg r s.readM.1).readReg r = s.busByte s.hl :=
    readReg_writeReg_same _ _ _
  exact ⟨_, rfl, fun h => hread.trans (busByte_present s h),
    fun h => hread.trans (busByte_absent s h)⟩

end Sys2Proof.Claims

/-! PROOF of O24. The operand bytes that the decoder asks for are those of the term it gives, and
each is fetched in one PCR cycle. -/

namespace Sys2Proof.Claims

open Sys2Proof.Machine

/-! ### Operand bytes -/

/-- How many bytes follow the first one in an instruction (30_encoding.md R90). -/
def operandCount (i : Instr) : Nat := (encode i).tail.length

/-- The table's row of an instruction (20_memory.md R64): the fetch of its first byte, one cycle for
each operand byte, then the cycle of its own. -/
theorem instrCycles_types (i : Instr) (s : State) :
    (instrCycles i true).map (·.1) = .pci ::
      (List.replicate (operandCount i) .pcr ++ (ownCycle i s).toList.map BusEvent.cycle) := by
  cases i <;> rfl

theorem decodeIncrement_operandCount (ddd : BitVec 3) : operandCount (decodeIncrement ddd) = 0 := by
  revert ddd
  decide

theorem decodeDecrement_operandCount (ddd : BitVec 3) : operandCount (decodeDecrement ddd) = 0 := by
  revert ddd
  decide

theorem decodeRotate_operandCount (mid : BitVec 3) : operandCount (decodeRotate mid) = 0 := by
  revert mid
  decide

theorem aluRegister_operandCount (ppp : BitVec 3) (r : Reg) :
    operandCount (aluRegister ppp r) = 0 := by
  unfold aluRegister
  split <;> rfl

theorem aluMemory_operandCount (ppp : BitVec 3) : operandCount (aluMemory ppp) = 0 := by
  unfold aluMemory
  split <;> rfl

theorem aluImmediate_operandCount (ppp : BitVec 3) (v : Byte) :
    operandCount (aluImmediate ppp v) = 1 := by
  unfold aluImmediate
  split <;> rfl

/-- In class 00 the columns 100 and 110 have an operand byte (30_encoding.md R91). -/
theorem decodeClass00_operandCount (b b2 : Byte) :
    operandCount (decodeClass00 b b2) = if lowField b = 4 ∨ lowField b = 6 then 1 else 0 := by
  simp only [← BitVec.toNat_inj]
  unfold decodeClass00
  split
  · next h => simpa [h] using decodeIncrement_operandCount _
  · next h => simpa [h] using decodeDecrement_operandCount _
  · next h => simpa [h] using decodeRotate_operandCount _
  · next h => rw [h]; split <;> rfl
  · next h => simpa [h] using aluImmediate_operandCount _ _
  · next h => rw [h]; rfl
  · next h => rw [h]; split <;> rfl
  · next h4 _ h6 => exact (if_neg (not_or.mpr ⟨h4, h6⟩)).symm

/-- In class 01 the jumps and calls have two, INP and OUT none (30_encoding.md R91). -/
theorem decodeClass01_operandCount (b b2 b3 : Byte) :
    operandCount (decodeClass01 b b2 b3) = if b.getLsbD 0 then 0 else 2 := by
  unfold decodeClass01
  split
  · split <;> rfl
  · split
    · split <;> rfl
    · split <;> rfl
    · rfl
    · rfl

theorem decodeClass10_operandCount (b : Byte) : operandCount (decodeClass10 b) = 0 := by
  unfold decodeClass10
  split
  · exact aluRegister_operandCount _ _
  · exact aluMemory_operandCount _

theorem decodeClass11_operandCount (b : Byte) : operandCount (decodeClass11 b) = 0 := by
  unfold decodeClass11
  split <;> rfl

theorem instrLength_class00 {b : Byte} (h : classField b = 0) :
    instrLength b = if lowField b = 4 ∨ lowField b = 6 then 2 else 1 := by
  grind [instrLength]

theorem instrLength_class01 {b : Byte} (h : classField b = 1) :
    instrLength b = if b.getLsbD 0 then 1 else 3 := by
  grind [instrLength]

theorem instrLength_of_other_class {b : Byte} (h0 : classField b ≠ 0) (h1 : classField b ≠ 1) :
    instrLength b = 1 := by
  grind [instrLength]

/-- The operand bytes of the term are those that the first byte asks for (30_encoding.md R90). -/
theorem instrLength_eq_operandCount (b b2 b3 : Byte) :
    instrLength b = operandCount (decodeBytes b b2 b3) + 1 := by
  unfold decodeBytes
  split
  · next h =>
    rw [instrLength_class00 (BitVec.eq_of_toNat_eq h), decodeClass00_operandCount]
    split <;> rfl
  · next h =>
    rw [instrLength_class01 (BitVec.eq_of_toNat_eq h), decodeClass01_operandCount]
    split <;> rfl
  · next h =>
    have hcls : classField b = 2 := BitVec.eq_of_toNat_eq h
    rw [instrLength_of_other_class (by simp [hcls]) (by simp [hcls]), decodeClass10_operandCount]
  · next h0 h1 _ =>
    have hcls0 : classField b ≠ 0 := fun e => h0 (congrArg BitVec.toNat e)
    have hcls1 : classField b ≠ 1 := fun e => h1 (congrArg BitVec.toNat e)
    rw [instrLength_of_other_class hcls0 hcls1, decodeClass11_operandCount]

/-- No first byte asks for more than two operand bytes (30_encoding.md R90). -/
theorem instrLength_cases (b : Byte) :
    instrLength b = 1 ∨ instrLength b = 2 ∨ instrLength b = 3 := by
  unfold instrLength
  split_ifs <;> simp

/-! ### Cycles of the fetch -/

/-- One PCR cycle for each operand byte of the instruction that is handed on. -/
theorem fetchRest_cycles (s : State) (b : Byte) (src2 src3 : BusSource) :
    (s.fetchRest b src2 src3).2.events.map BusEvent.cycle =
      List.replicate (operandCount (s.fetchRest b src2 src3).1) .pcr ++
        s.events.map BusEvent.cycle := by
  have hcount (b2 b3 : Byte) : operandCount (decodeBytes b b2 b3) = instrLength b - 1 := by
    rw [instrLength_eq_operandCount b b2 b3, Nat.add_sub_cancel]
  unfold State.fetchRest
  split
  · next h => rw [hcount, h]; rfl
  · next h => rw [hcount, h]; rfl
  · next h3 h2 =>
    have h1 : instrLength b = 1 := (instrLength_cases b).resolve_right (not_or.mpr ⟨h2, h3⟩)
    rw [hcount, h1]
    rfl

/-- A boundary that hands on an instruction has made one PCI cycle and then the PCR cycles of its
operand bytes. -/
theorem boundary_cycles {s u : State} {i : Instr} (h : s.boundary = (some i, u)) :
    u.events.map BusEvent.cycle =
      List.replicate (operandCount i) .pcr ++ .pci :: s.events.map BusEvent.cycle := by
  rcases boundary_cases s with ⟨j, rest, _, e⟩ | ⟨_, _, e⟩ | ⟨_, _, e⟩
  · cases e.symm.trans h
    exact fetchRest_cycles (State.fetchInterrupt { s with intSource := rest } j).2 _ _ _
  · cases e.symm.trans h
  · cases e.symm.trans h
    exact fetchRest_cycles (State.fetchOpcode { s with intSource := s.intSource.tail }).2 _ _ _

/-- Settles O24: the cycles of the fetch, then the instruction's own, of which there is at most
one. -/
theorem busCyclesInOrder : Obligations.BusCyclesInOrder := by
  intro s u t i hb h
  have hown : (ownCycle i u).toList.reverse = (ownCycle i u).toList := by
    cases ownCycle i u <;> rfl
  rw [exec_events h, List.map_append, boundary_cycles hb, instrCycles_types i u]
  simp [hown, ← List.map_reverse]

end Sys2Proof.Claims

/-! PROOF of O25. What the bytes sent at T1 and T2 show of a bus cycle. -/

namespace Sys2Proof.Claims

open Sys2Proof.Machine

/-- D7 and D6 at T2 are the code of the cycle type (20_memory.md R53). -/
theorem pins_code (e : BusEvent) : e.pins.t2.extractLsb' 6 2 = e.pins.cycle.code := by
  cases e with
  | input port =>
    change ((0b0100 : BitVec 4) ++ port ++ (1 : BitVec 1)).extractLsb' 6 2 = 0b01
    revert port
    decide
  | output port =>
    change ((0b01 : BitVec 2) ++ port ++ (1 : BitVec 1)).extractLsb' 6 2 = 0b01
    revert port
    decide
  | _ => exact BitVec.extractLsb'_append_eq_left

/-- The four codes are read back as what they stand for. -/
theorem cycleOfT2_of_code {t2 : Byte} {c : CycleType} (h : t2.extractLsb' 6 2 = c.code) :
    cycleOfT2 t2 = c := by
  unfold cycleOfT2
  rw [h]
  cases c <;> rfl

theorem cycleOfT2_pins (e : BusEvent) : cycleOfT2 e.pins.t2 = e.pins.cycle :=
  cycleOfT2_of_code (pins_code e)

/-- The two bytes of a memory cycle hold its address (20_memory.md R53). -/
theorem address_of_t2_t1 (c : CycleType) (a : Addr) :
    (addressT2 c a).extractLsb' 0 6 ++ addressT1 a = a := by
  rw [addressT2, BitVec.extractLsb'_append_eq_right, addressT1,
    BitVec.extractLsb'_append_extractLsb'_eq_extractLsb' (start₁ := 0) (len₁ := 8) rfl]
  exact BitVec.extractLsb'_eq_self

theorem pins_interrupt (e : BusEvent) :
    e.pins.interrupt = true ↔ ∃ a v, e = .interruptFetch a v := by
  cases e <;> simp [BusEvent.pins]

/-- Settles O25, clause by clause. -/
theorem pinsTellTheCycle : Obligations.PinsTellTheCycle := by
  have hpins (e : BusEvent) := And.intro (pins_code e) (cycleOfT2_pins e)
  refine ⟨?_, cycleOfT2_pins, pins_interrupt, ?_, fun _ _ _ _ => ⟨rfl, rfl⟩,
    fun _ _ => ⟨rfl, rfl, rfl⟩⟩
  · rintro a v t2 code cycle (⟨rfl | rfl, rfl, rfl⟩ | ⟨rfl | rfl, rfl, rfl⟩ |
      ⟨⟨port, acc, f, rfl⟩ | ⟨port, rfl⟩, rfl, rfl⟩ | ⟨rfl, rfl, rfl⟩)
    all_goals exact hpins _
  · intro a v e he
    simp only [List.mem_cons, List.not_mem_nil, or_false] at he
    rcases he with rfl | rfl | rfl | rfl | rfl
    all_goals exact address_of_t2_t1 _ a

end Sys2Proof.Claims

/-! PROOF of O27. The outputs are read off the history, so they grow only with an output cycle. -/

namespace Sys2Proof.Claims

open Sys2Proof.Machine

theorem outputs_congr {s t : State} (h : t.events = s.events) : t.outputs = s.outputs := by
  rw [State.outputs, h, State.outputs]

theorem outputs_of_output {s t : State} {port : BitVec 5} {v : Byte}
    (h : t.events = .output port v :: s.events) : t.outputs = s.outputs ++ [(port, v)] := by
  rw [State.outputs, h, List.reverse_cons, List.filterMap_append]
  rfl

theorem outputs_of_ne_output {s t : State} {e : BusEvent} (h : t.events = e :: s.events)
    (he : ∀ port v, e ≠ .output port v) : t.outputs = s.outputs := by
  rw [State.outputs, h, List.reverse_cons, List.filterMap_append]
  cases e with
  | output port v => exact absurd rfl (he port v)
  | _ => exact List.append_nil _

/-- Settles O27: a new event that is an output is one of OUT. -/
theorem outputsInProgramOrder : Obligations.OutputsInProgramOrder := by
  intro i s t h
  refine ⟨?_, fun hi => ?_⟩
  · rintro port rfl
    cases h
    exact outputs_of_output rfl
  · obtain ⟨_, _, _, _, _, _, hevents | ⟨e, hevents, hout⟩⟩ := exec_frame h
    · exact outputs_congr hevents
    · exact outputs_of_ne_output hevents fun port v he => hi port (hout port v he)

end Sys2Proof.Claims

/-! PROOF of O1, and SUPPORT for O2, O3 and O18. The fields of a packed byte, and what the decoder
and the encoder do with them, each said once (30_encoding.md R81 to R97). -/

namespace Sys2Proof.Claims

/-! ### Fields of a packed byte -/

@[simp] theorem classField_pack (cls : BitVec 2) (mid low : BitVec 3) :
    classField (pack cls mid low) = cls := by
  revert cls mid low
  decide

@[simp] theorem midField_pack (cls : BitVec 2) (mid low : BitVec 3) :
    midField (pack cls mid low) = mid := by
  revert cls mid low
  decide

@[simp] theorem lowField_pack (cls : BitVec 2) (mid low : BitVec 3) :
    lowField (pack cls mid low) = low :=
  BitVec.extractLsb'_append_eq_right

@[simp] theorem senseBit_pack (cls : BitVec 2) (mid low : BitVec 3) :
    senseBit (pack cls mid low) = mid[2] := by
  revert cls mid low
  decide

@[simp] theorem condField_pack (cls : BitVec 2) (mid low : BitVec 3) :
    condField (pack cls mid low) = mid.extractLsb' 0 2 := by
  revert cls mid low
  decide

@[simp] theorem bit0_pack (cls : BitVec 2) (mid low : BitVec 3) :
    (pack cls mid low)[0] = low[0] := by
  revert cls mid low
  decide

@[simp] theorem bits21_pack (cls : BitVec 2) (mid low : BitVec 3) :
    (pack cls mid low).extractLsb' 1 2 = low.extractLsb' 1 2 := by
  revert cls mid low
  decide

@[simp] theorem condMid_sense (sense : BitVec 1) (c : Cond) :
    (condMid sense c)[2] = sense[0] := by
  revert sense
  cases c <;> decide

@[simp] theorem condMid_code (sense : BitVec 1) (c : Cond) :
    (condMid sense c).extractLsb' 0 2 = c.code :=
  BitVec.extractLsb'_append_eq_right

/-! ### Codes and targets -/

@[simp] theorem regOfCode_code (r : Reg) : Reg.ofCode r.code = some r := by
  cases r <;> rfl

@[simp] theorem regOfCode_memory : Reg.ofCode 7#3 = none := rfl

@[simp] theorem condOfCode_code (c : Cond) : Cond.ofCode c.code = c := by
  cases c <;> rfl

/-- The low 14 bits of `<B3>` `<B2>` are the target; bits 7 and 6 of `<B3>` are not looked at
(30_encoding.md R84, R97). -/
@[simp] theorem targetOf_append (b2 : Byte) (x : BitVec 2) (high : BitVec 6) :
    targetOf b2 (x ++ high) = high ++ b2 := by
  rw [targetOf, BitVec.extractLsb'_append_eq_right]

/-- The canonical `<B3>` `<B2>` are the two bytes that a cycle of type 00 (PCI) sends for the
address (20_memory.md R53). -/
@[simp] theorem targetOf_address (t : Addr) : targetOf (lowAddress t) (highAddress t) = t :=
  address_of_t2_t1 .pci t

/-! ### Instruction bytes -/

/-- `bytes` are one to three and stand for `i`; where an operand byte is not there, the decoder is
given 0 (30_encoding.md R80, R91). -/
def ReadAs (bytes : List Byte) (i : Instr) : Prop :=
  match bytes with
  | [b] => decodeBytes b 0 0 = i
  | [b, b2] => decodeBytes b b2 0 = i
  | [b, b2, b3] => decodeBytes b b2 b3 = i
  | _ => False

/-- The decoder takes the bytes of one instruction and leaves what follows. -/
theorem decode_append {bytes : List Byte} {i : Instr} (h : ReadAs bytes i)
    (hlen : bytes.length = operandCount i + 1) (rest : List Byte) :
    decode (bytes ++ rest) = .ok (i, rest) := by
  match bytes, h with
  | [b], h | [b, b2], h | [b, b2, b3], h =>
    subst h
    rw [← instrLength_eq_operandCount] at hlen
    simp [decode, ← hlen]

/-- Canonical bytes are read back as the instruction they stand for (30_encoding.md R91 to R95). -/
theorem readAs_encode {i : Instr} (h : i.WellFormed) : ReadAs (encode i) i := by
  cases i
  case inr r | dcr r =>
    cases r with
    | a => cases h
    | _ => rfl
  case rfc c | rtc c | lri r v => simp [ReadAs, encode, decodeBytes, decodeClass00]
  case jmp t | cal t | jfc c t | jtc c t | cfc c t | ctc c t =>
    simp [ReadAs, encode, decodeBytes, decodeClass01]
  case adr r | acr r | sur r | sbr r | ndr r | xrr r | orr r | cpr r =>
    simp [ReadAs, encode, decodeBytes, decodeClass10, aluRegister]
  case lrm r | lmr r | lrr r1 r2 => simp [ReadAs, encode, decodeBytes, decodeClass11]
  case rst aaa => simp [ReadAs, encode, decodeBytes, decodeClass00]
  case inp port => simp only [ReadAs, encode]; revert port; decide
  case out port => simp only [ReadAs, encode]; revert port; decide
  all_goals rfl

theorem encode_length (i : Instr) : (encode i).length = operandCount i + 1 := by
  cases i <;> rfl

/-- Settles O1: canonical bytes are read back, and they are as many as the decoder takes. -/
theorem decodeOfEncode : Obligations.DecodeOfEncode :=
  fun i rest h => decode_append (readAs_encode h) (encode_length i) rest

end Sys2Proof.Claims

/-! PROOF of O2. The length of an instruction, on the number of its first byte. -/

namespace Sys2Proof.Claims

theorem classField_toNat (b : Byte) : (classField b).toNat = b.toNat / 64 := by
  have hb : b.toNat < 256 := b.isLt
  rw [classField, BitVec.extractLsb'_toNat, Nat.shiftRight_eq_div_pow]
  omega

theorem lowField_toNat (b : Byte) : (lowField b).toNat = b.toNat % 8 :=
  BitVec.extractLsb'_toNat 0 3 b

theorem bit0_eq_false (b : Byte) : b.getLsbD 0 = false ↔ b.toNat % 2 = 0 := by
  simp [BitVec.getLsbD]

/-- The model's rule on fields and the rule on the number of the first byte agree (30_encoding.md
R90). -/
theorem lengthOf_eq_instrLength (b : Byte) : lengthOf b = instrLength b := by
  simp only [lengthOf, instrLength, ← BitVec.toNat_inj, classField_toNat, lowField_toNat,
    bit0_eq_false]
  rfl

/-- Two bytes after the first are enough for any first byte. -/
theorem decode_three (b b2 b3 : Byte) (rest : List Byte) : ∃ x y,
    decode (b :: b2 :: b3 :: rest) =
      .ok (decodeBytes b x y, (b2 :: b3 :: rest).drop (instrLength b - 1)) := by
  rcases instrLength_cases b with h | h | h
  all_goals simp only [decode, h]; exact ⟨_, _, rfl⟩

/-- Settles O2. -/
theorem lengthByFirstByte : Obligations.LengthByFirstByte := by
  intro b b2 b3 rest
  obtain ⟨x, y, hdecode⟩ := decode_three b b2 b3 rest
  exact ⟨_, decodeBytes_wellFormed b x y, lengthOf_eq_instrLength b ▸ hdecode⟩

end Sys2Proof.Claims

/-! PROOF of O3. The rows of R97 decode alike whatever their don't-care bits are. -/

namespace Sys2Proof.Claims

open Sys2Proof.Machine

/-- JMP, whatever bits 5 to 3 are (30_encoding.md R93, R97). -/
theorem decode_jmp (x : BitVec 3) (b2 b3 : Byte) :
    decode [pack 0b01 x 0b100, b2, b3] = .ok (.jmp (targetOf b2 b3), []) := by
  simp [decode, instrLength, decodeBytes, decodeClass01]

/-- CAL, whatever bits 5 to 3 are (30_encoding.md R93, R97). -/
theorem decode_cal (x : BitVec 3) (b2 b3 : Byte) :
    decode [pack 0b01 x 0b110, b2, b3] = .ok (.cal (targetOf b2 b3), []) := by
  simp [decode, instrLength, decodeBytes, decodeClass01]

/-- RET, whatever bits 5 to 3 are (30_encoding.md R92, R97). -/
theorem decode_ret (x : BitVec 3) : decode [pack 0b00 x 0b111] = .ok (.ret, []) := by
  simp [decode, instrLength, decodeBytes, decodeClass00]

/-- HLT, whatever bit 0 is (30_encoding.md R92, R97). -/
theorem decode_hlt (x : BitVec 1) : decode [(0 : BitVec 7) ++ x] = .ok (.hlt, []) := by
  revert x
  decide

/-- The third byte is looked at in the target alone (30_encoding.md R84). -/
theorem decodeBytes_congr {b2 b3 b3' : Byte} (b : Byte) (h : targetOf b2 b3 = targetOf b2 b3') :
    decodeBytes b b2 b3 = decodeBytes b b2 b3' := by
  simp only [decodeBytes, decodeClass01, h]

/-- Bits 7 and 6 of a third byte are ignored (30_encoding.md R84, R97). -/
theorem decode_third_byte {b : Byte} (h : instrLength b = 3) (b2 b3 : Byte) (x : BitVec 2) :
    decode [b, b2, x ++ b3.extractLsb' 0 6] = decode [b, b2, b3] := by
  have htarget : targetOf b2 (x ++ b3.extractLsb' 0 6) = targetOf b2 b3 := targetOf_append b2 x _
  simp only [decode, h, decodeBytes_congr b htarget]

/-- Settles O3, clause by clause. -/
theorem dontCareBitsIgnored : Obligations.DontCareBitsIgnored := by
  refine ⟨fun x b2 b3 => ⟨?_, ?_, ?_⟩, fun x => ?_, fun _ => rfl, fun b b2 b3 x h => ?_,
    fun _ => ⟨rfl, rfl⟩, ?_, rfl, rfl⟩
  · exact (decode_jmp x b2 b3).trans (decode_jmp 0 b2 b3).symm
  · exact (decode_cal x b2 b3).trans (decode_cal 0 b2 b3).symm
  · exact (decode_ret x).trans (decode_ret 0).symm
  · exact (decode_hlt x).trans (decode_hlt 0).symm
  · exact decode_third_byte (lengthOf_eq_instrLength b ▸ h) b2 b3 x
  · rintro c t i b (⟨rfl, rfl⟩ | ⟨rfl, rfl⟩ | ⟨rfl, rfl⟩ | ⟨rfl, rfl⟩)
    all_goals cases c <;> rfl

end Sys2Proof.Claims

/-! PROOF of O18. The undefined rows are in three columns of class 00. -/

namespace Sys2Proof.Claims

open Sys2Proof.Machine

/-- INr and DCr with DDD = 111, and the rotate column from 100 on (30_encoding.md R96). -/
theorem mem_undefinedBytes (b : Byte) : b ∈ undefinedBytes ↔
    classField b = 0 ∧ ((lowField b = 0 ∨ lowField b = 1) ∧ midField b = 7 ∨
      lowField b = 2 ∧ 4 ≤ (midField b).toNat) := by
  revert b
  decide

theorem decodeIncrement_isUndefined (ddd : BitVec 3) :
    (decodeIncrement ddd).isUndefined = true ↔ ddd = 7 := by
  revert ddd
  decide

theorem decodeDecrement_isUndefined (ddd : BitVec 3) :
    (decodeDecrement ddd).isUndefined = true ↔ ddd = 7 := by
  revert ddd
  decide

theorem decodeRotate_isUndefined (mid : BitVec 3) :
    (decodeRotate mid).isUndefined = true ↔ 4 ≤ mid.toNat := by
  revert mid
  decide

theorem aluRegister_isUndefined (ppp : BitVec 3) (r : Reg) :
    (aluRegister ppp r).isUndefined = false := by
  unfold aluRegister
  split <;> rfl

theorem aluMemory_isUndefined (ppp : BitVec 3) : (aluMemory ppp).isUndefined = false := by
  unfold aluMemory
  split <;> rfl

theorem aluImmediate_isUndefined (ppp : BitVec 3) (v : Byte) :
    (aluImmediate ppp v).isUndefined = false := by
  unfold aluImmediate
  split <;> rfl

theorem decodeClass00_isUndefined (b b2 : Byte) : (decodeClass00 b b2).isUndefined = true ↔
    (lowField b = 0 ∨ lowField b = 1) ∧ midField b = 7 ∨
      lowField b = 2 ∧ 4 ≤ (midField b).toNat := by
  simp only [← BitVec.toNat_inj (y := (0 : BitVec 3)), ← BitVec.toNat_inj (y := (1 : BitVec 3)),
    ← BitVec.toNat_inj (y := (2 : BitVec 3))]
  unfold decodeClass00
  split
  · next h => simp [h, decodeIncrement_isUndefined]
  · next h => simp [h, decodeDecrement_isUndefined]
  · next h => simp [h, decodeRotate_isUndefined]
  · next h => split <;> simp [h, Instr.isUndefined]
  · next h => simp [h, aluImmediate_isUndefined]
  · next h => simp [h, Instr.isUndefined]
  · next h => split <;> simp [h, Instr.isUndefined]
  · next h0 h1 h2 _ _ _ _ => simp_all [Instr.isUndefined]

theorem decodeClass01_isUndefined (b b2 b3 : Byte) :
    (decodeClass01 b b2 b3).isUndefined = false := by
  unfold decodeClass01
  split
  · split <;> rfl
  · split
    · split <;> rfl
    · split <;> rfl
    · rfl
    · rfl

theorem decodeClass10_isUndefined (b : Byte) : (decodeClass10 b).isUndefined = false := by
  unfold decodeClass10
  split
  · exact aluRegister_isUndefined _ _
  · exact aluMemory_isUndefined _

theorem decodeClass11_isUndefined (b : Byte) : (decodeClass11 b).isUndefined = false := by
  unfold decodeClass11
  split <;> rfl

theorem decodeBytes_isUndefined (b b2 b3 : Byte) :
    (decodeBytes b b2 b3).isUndefined = true ↔ b ∈ undefinedBytes := by
  rw [mem_undefinedBytes, ← BitVec.toNat_inj]
  unfold decodeBytes
  split
  · next h => simp [h, decodeClass00_isUndefined]
  · next h => simp [h, decodeClass01_isUndefined]
  · next h => simp [h, decodeClass10_isUndefined]
  · next h0 _ _ =>
    have hcls : (classField b).toNat ≠ 0 := h0
    simp [hcls, decodeClass11_isUndefined]

theorem exec_undefinedByte {b : Byte} (h : b ∈ undefinedBytes) (b2 b3 : Byte) (s : State) :
    exec (decodeBytes b b2 b3) s = .fault (.undefinedOpcode b s.irOrigin) := by
  simp only [undefinedBytes, List.mem_cons, List.not_mem_nil, or_false] at h
  rcases h with rfl | rfl | rfl | rfl | rfl | rfl
  all_goals rfl

/-- Settles O18. -/
theorem undefinedBytesFault : Obligations.UndefinedBytesFault :=
  ⟨decodeBytes_isUndefined, fun _ => exec_undefinedByte⟩

end Sys2Proof.Claims

/-! SUPPORT for the statements that give an instruction's encoding, or the flags of a result. -/

namespace Sys2Proof.Claims

open Sys2Proof.Machine

/-- The form of an instruction may be read off its canonical bytes and its row of the cycle table,
since the canonical bytes decode to it. -/
theorem form_of_encode {i : Instr} {bytes : List Byte} {cycles : List CycleType} {states : Nat}
    (hwf : i.WellFormed) (hbytes : encode i = bytes)
    (hcycles : (instrCycles i true).map (·.1) = cycles) (hstates : instrStates i true = states) :
    Form i bytes cycles states := by
  have hdecode := decodeOfEncode i [] hwf
  rw [List.append_nil, hbytes] at hdecode
  exact ⟨hwf, hdecode, hcycles, hstates⟩

/-- The model's sum of the eight bits is the number of bits that are 1. -/
theorem countP_getLsbD_eq_onesCount (v : Byte) :
    (List.range 8).countP (fun k => v.getLsbD k) = onesCount v := by
  have hrange : List.range 8 = [0, 1, 2, 3, 4, 5, 6, 7] := rfl
  simp only [hrange, List.countP_cons, List.countP_nil, onesCount, Bool.toNat, Bool.cond_eq_ite,
    BitVec.getLsbD_eq_getElem, Nat.reduceLT]
  omega

/-- The model's zero, sign and parity are those of 10_state.md R31. -/
theorem flagsOf_eq (c : Bool) (v : Byte) : flagsOf c v = ⟨c, v == 0, v[7], parityEven v⟩ := by
  have hzero : decide (v.toNat = 0) = (v == 0) := by
    rw [Bool.eq_iff_iff, decide_eq_true_iff, beq_iff_eq]
    exact BitVec.toNat_inj (y := 0)
  have hsign : decide (128 ≤ v.toNat) = v[7] := (BitVec.msb_eq_decide v).symm
  rw [flagsOf, hzero, hsign, countP_getLsbD_eq_onesCount]
  rfl

theorem setZSP_eq_flagsOf (f : Flags) (v : Byte) : f.setZSP v = flagsOf f.c v :=
  (flagsOf_eq f.c v).symm

end Sys2Proof.Claims

/-! PROOF of O31, O32, O35, O36 and O37. The loads end in a write of a register or of M, INr and DCr
in a count; what each of the three leaves is said once. -/

namespace Sys2Proof.Claims

open Sys2Proof.Machine

/-! ### What a register takes -/

/-- A load: the register takes the byte, the others keep theirs, nothing else is changed. -/
theorem writeReg_spec (s : State) (r : Reg) (v : Byte) :
    (s.writeReg r v).readReg r = v ∧
      (∀ q, q ≠ r → (s.writeReg r v).readReg q = s.readReg q) ∧
      s.writeReg r v = { s with regs := (s.writeReg r v).regs } :=
  ⟨readReg_writeReg_same s r v, fun _ h => readReg_writeReg_other s v h, rfl⟩

/-- A count to the byte of number `n`: zero, sign and parity describe it; the carry, the other
registers and everything else are kept. -/
theorem countTo_spec (s : State) (r : Reg) {v : Byte} {n : Nat} (hv : v.toNat = n) :
    ((s.countTo r v).readReg r).toNat = n ∧
      (∀ q, q ≠ r → (s.countTo r v).readReg q = s.readReg q) ∧
      (s.countTo r v).flags = flagsOf s.flags.c ((s.countTo r v).readReg r) ∧
      s.countTo r v = { s with regs := (s.countTo r v).regs, flags := (s.countTo r v).flags } := by
  have hsame : (s.countTo r v).readReg r = v := readReg_writeReg_same s r v
  rw [hsame]
  exact ⟨hv, fun _ h => readReg_writeReg_other s v h, setZSP_eq_flagsOf s.flags v, rfl⟩

/-- One less is 255 more, mod 256 (40_index_register.md R117). -/
theorem toNat_sub_one (v : Byte) : (v - 1).toNat = (v.toNat + 255) % 256 := by
  rw [Nat.add_comm]
  exact BitVec.toNat_sub v 1

/-! ### The obligations -/

/-- Settles O31: a load of the register's own byte writes back what is there. -/
theorem loadRegisterFromRegister : Obligations.LoadRegisterFromRegister := fun r1 r2 s =>
  ⟨form_of_encode rfl rfl rfl rfl, ⟨_, rfl, writeReg_spec s r1 (s.readReg r2)⟩,
    congrArg Host.Outcome.next (writeReg_self s r1)⟩

/-- Settles O32: the read is recorded, at the HL before the load, and then the register is
written. -/
theorem loadRegisterFromMemory : Obligations.LoadRegisterFromMemory := fun r s =>
  ⟨form_of_encode rfl rfl rfl rfl, _, rfl, writeReg_spec (afterReadM s) r (s.busByte s.hl)⟩

/-- Settles O35: LMr and LMI are writes of M. -/
theorem storeToMemory : Obligations.StoreToMemory := by
  refine ⟨fun r => form_of_encode rfl rfl rfl rfl, fun v => form_of_encode rfl rfl rfl rfl, ?_⟩
  intro s w i v hi
  have hexec : exec i s = .next (s.writeM v) := by
    obtain rfl | ⟨r, rfl, rfl⟩ := hi
    · rfl
    · rfl
  obtain ⟨hsame, hother, _⟩ := writeM_spec s v w
  exact ⟨s.writeM v, hexec, hsame, hother, rfl⟩

/-- Settles O36. -/
theorem loadRegisterImmediate : Obligations.LoadRegisterImmediate := fun r v s =>
  ⟨form_of_encode rfl rfl rfl rfl, _, rfl, writeReg_spec s r v⟩

/-- Settles O37: INr counts to the byte one up, DCr to the byte one down. -/
theorem incrementAndDecrement : Obligations.IncrementAndDecrement := by
  intro r s hr
  have hwf : decide (r ≠ .a) = true := decide_eq_true hr
  exact ⟨form_of_encode hwf rfl rfl rfl, form_of_encode hwf rfl rfl rfl,
    ⟨_, rfl, countTo_spec s r (BitVec.toNat_add (s.readReg r) 1)⟩,
    _, rfl, countTo_spec s r (toNat_sub_one (s.readReg r))⟩

end Sys2Proof.Claims

/-! SUPPORT for O38 to O43. What the model's sums and differences are as numbers, and the eight ALU
functions on an operand once it is there, whatever form of instruction brought it. -/

namespace Sys2Proof.Claims

open Sys2Proof.Machine

/-! ### Sums and differences as numbers -/

theorem carryIn_le_one (f : Flags) : carryIn f ≤ 1 := Bool.toNat_le f.c

/-- The carry is the ninth bit of the sum (41_accumulator_alu.md R121, R122). -/
theorem aluAdd_toNat (x v : Byte) {cin : Nat} (hcin : cin ≤ 1) :
    (aluAdd x v cin).carry.toNat * 256 + (aluAdd x v cin).value.toNat =
      x.toNat + v.toNat + cin := by
  have hx := x.isLt
  have hv := v.isLt
  simp only [aluAdd, BitVec.toNat_ofNat]
  by_cases h : 256 ≤ x.toNat + v.toNat + cin
  · rw [decide_eq_true h, Bool.toNat_true]; omega
  · rw [decide_eq_false h, Bool.toNat_false]; omega

/-- The carry is what the difference borrows (41_accumulator_alu.md R123, R124, R128). -/
theorem aluSub_toNat (x v : Byte) {bin : Nat} (hbin : bin ≤ 1) :
    (aluSub x v bin).value.toNat + v.toNat + bin =
      (aluSub x v bin).carry.toNat * 256 + x.toNat := by
  have hx := x.isLt
  have hv := v.isLt
  simp only [aluSub, BitVec.toNat_ofInt]
  by_cases h : (x.toNat : Int) - v.toNat - bin < 0
  · rw [decide_eq_true h, Bool.toNat_true]; omega
  · rw [decide_eq_false h, Bool.toNat_false]; omega

/-- A difference without a borrow in is zero for equal bytes alone. -/
theorem aluSub_value_eq_zero (x v : Byte) : (aluSub x v 0).value = 0 ↔ x = v := by
  have hsub := aluSub_toNat x v (Nat.zero_le 1)
  have hv := v.isLt
  have hvalue := (aluSub x v 0).value.isLt
  have hzero : (0 : Byte).toNat = 0 := rfl
  rw [← BitVec.toNat_inj, ← BitVec.toNat_inj, hzero]
  omega

/-- It borrows for an unsigned lesser byte alone. -/
theorem aluSub_carry (x v : Byte) : (aluSub x v 0).carry = true ↔ x.toNat < v.toNat := by
  rw [aluSub, decide_eq_true_iff]
  omega

/-! ### The exact result, narrowed -/

/-- An exact result narrowed to a byte, with the carry where it does not fit: what `AluFn.result`
and `AluFn.carries` take from `AluFn.exact`. -/
def narrow (n : Int) : AluOut := ⟨BitVec.ofInt 8 n, decide (n < 0 ∨ 255 < n)⟩

theorem narrow_exact (f : AluFn) (s : State) (v : Byte) :
    narrow (f.exact s.regs.a.toNat v.toNat s.flags.c.toNat) = ⟨f.result s v, f.carries s v⟩ := rfl

/-- A sum is never below 0. -/
theorem aluAdd_eq_narrow (x v : Byte) (cin : Nat) :
    aluAdd x v cin = narrow (x.toNat + v.toNat + cin) := by
  have hvalue : BitVec.ofNat 8 (x.toNat + v.toNat + cin) =
      BitVec.ofInt 8 ((x.toNat : Int) + v.toNat + cin) := (BitVec.ofInt_natCast 8 _).symm
  have hcarry : 256 ≤ x.toNat + v.toNat + cin ↔
      (x.toNat : Int) + v.toNat + cin < 0 ∨ 255 < (x.toNat : Int) + v.toNat + cin := by omega
  simp only [aluAdd, narrow, hvalue, hcarry]

/-- A sum without a carry in is the sum of the two numbers. -/
theorem aluAdd_zero_eq_narrow (x v : Byte) : aluAdd x v 0 = narrow (x.toNat + v.toNat) :=
  (aluAdd_eq_narrow x v 0).trans (congrArg narrow (Int.add_zero _))

/-- A difference is never above 255. -/
theorem aluSub_eq_narrow (x v : Byte) (bin : Nat) :
    aluSub x v bin = narrow (x.toNat - v.toNat - bin) := by
  have hx := x.isLt
  have hcarry : (x.toNat : Int) - v.toNat - bin < 0 ↔
      (x.toNat : Int) - v.toNat - bin < 0 ∨ 255 < (x.toNat : Int) - v.toNat - bin := by omega
  simp only [aluSub, narrow, ← hcarry]

/-- A difference without a borrow in is the difference of the two numbers. -/
theorem aluSub_zero_eq_narrow (x v : Byte) : aluSub x v 0 = narrow (x.toNat - v.toNat) :=
  (aluSub_eq_narrow x v 0).trans (congrArg narrow (Int.sub_zero _))

/-- The number of a byte always fits. -/
theorem narrow_toNat (b : Byte) : narrow b.toNat = ⟨b, false⟩ := by
  have hb := b.isLt
  have hfits : ¬ ((b.toNat : Int) < 0 ∨ 255 < (b.toNat : Int)) := by omega
  rw [narrow, BitVec.ofInt_natCast, BitVec.ofNat_toNat, BitVec.setWidth_eq, decide_eq_false hfits]

/-! ### The eight functions -/

/-- What the model does with A and an operand that it has (41_accumulator_alu.md R121 to R128). -/
def AluFn.operate (f : AluFn) (s : State) (v : Byte) : State :=
  match f with
  | .ad => s.accumulate (aluAdd s.acc v 0)
  | .ac => s.accumulate (aluAdd s.acc v (carryIn s.flags))
  | .su => s.accumulate (aluSub s.acc v 0)
  | .sb => s.accumulate (aluSub s.acc v (carryIn s.flags))
  | .nd => s.accumulate (aluAnd s.acc v)
  | .xr => s.accumulate (aluXor s.acc v)
  | .or => s.accumulate (aluOr s.acc v)
  | .cp => s.compareWith (aluSub s.acc v 0)

theorem exec_onReg_operate (f : AluFn) (r : Reg) (s : State) :
    exec (f.onReg r) s = .next (f.operate s (s.readReg r)) := by
  cases f <;> rfl

theorem exec_onM_operate (f : AluFn) (s : State) :
    exec f.onM s = .next (f.operate (afterReadM s) (s.busByte s.hl)) := by
  cases f <;> rfl

theorem exec_onByte_operate (f : AluFn) (v : Byte) (s : State) :
    exec (f.onByte v) s = .next (f.operate s v) := by
  cases f <;> rfl

theorem accumulate_eq_after {f : AluFn} (hf : f ≠ .cp) {s : State} {v : Byte} {o : AluOut}
    (ho : o = narrow (f.exact s.regs.a.toNat v.toNat s.flags.c.toNat)) :
    s.accumulate o = f.after s v := by
  rw [ho, narrow_exact, AluFn.after, if_neg hf, flagsOf_eq]
  rfl

theorem compareWith_eq_after {s : State} {v : Byte} {o : AluOut}
    (ho : o = narrow (AluFn.cp.exact s.regs.a.toNat v.toNat s.flags.c.toNat)) :
    s.compareWith o = AluFn.cp.after s v := by
  rw [ho, narrow_exact, AluFn.after, if_pos rfl, flagsOf_eq]
  rfl

/-- Each function leaves its exact result, narrowed, and the flags of it. -/
theorem operate_eq_after (f : AluFn) (s : State) (v : Byte) : f.operate s v = f.after s v := by
  cases f with
  | ad => exact accumulate_eq_after (f := .ad) nofun (aluAdd_zero_eq_narrow s.acc v)
  | ac => exact accumulate_eq_after (f := .ac) nofun (aluAdd_eq_narrow s.acc v (carryIn s.flags))
  | su => exact accumulate_eq_after (f := .su) nofun (aluSub_zero_eq_narrow s.acc v)
  | sb => exact accumulate_eq_after (f := .sb) nofun (aluSub_eq_narrow s.acc v (carryIn s.flags))
  | nd => exact accumulate_eq_after (f := .nd) nofun (narrow_toNat (s.acc &&& v)).symm
  | xr => exact accumulate_eq_after (f := .xr) nofun (narrow_toNat (s.acc ^^^ v)).symm
  | or => exact accumulate_eq_after (f := .or) nofun (narrow_toNat (s.acc ||| v)).symm
  | cp => exact compareWith_eq_after (aluSub_zero_eq_narrow s.acc v)

end Sys2Proof.Claims

/-! PROOF of O38 to O43. The eight functions in their three forms, and what compares and carries say
of numbers. -/

namespace Sys2Proof.Claims

open Sys2Proof.Machine

/-! ### The register form -/

theorem form_onReg (f : AluFn) (r : Reg) :
    Form (f.onReg r) [(0b10 : BitVec 2) ++ f.ppp ++ r.code] [.pci] 5 := by
  cases f <;> exact form_of_encode rfl rfl rfl rfl

theorem exec_onReg (f : AluFn) (r : Reg) (s : State) :
    exec (f.onReg r) s = .next (f.after s (s.readReg r)) := by
  rw [exec_onReg_operate, operate_eq_after]

/-- Settles O38: the exact integer sum or difference is what the register form leaves. -/
theorem arithmeticOnRegister : Obligations.ArithmeticOnRegister := fun f r s _ =>
  ⟨form_onReg f r, exec_onReg f r s⟩

/-- Settles O39: so it is for the logical functions, whose results always fit, and the compare. -/
theorem logicAndCompareOnRegister : Obligations.LogicAndCompareOnRegister := fun f r s _ =>
  ⟨form_onReg f r, exec_onReg f r s⟩

/-! ### The other forms -/

/-- Settles O40: the read is recorded, and then the function has its operand. -/
theorem aluOnMemory : Obligations.AluOnMemory := by
  intro f s
  have hform : Form f.onM [(0b10 : BitVec 2) ++ f.ppp ++ (0b111 : BitVec 3)] [.pci, .pcr] 8 := by
    cases f <;> exact form_of_encode rfl rfl rfl rfl
  rw [exec_onM_operate, operate_eq_after]
  exact ⟨hform, rfl⟩

/-- Settles O41. -/
theorem aluOnImmediate : Obligations.AluOnImmediate := by
  intro f v s
  have hform : Form (f.onByte v) [(0b00 : BitVec 2) ++ f.ppp ++ (0b100 : BitVec 3), v]
      [.pci, .pcr] 8 := by
    cases f <;> exact form_of_encode rfl rfl rfl rfl
  rw [exec_onByte_operate, operate_eq_after]
  exact ⟨hform, rfl⟩

/-! ### Compares, and numbers of two bytes -/

/-- Settles O42: each form compares A with its operand, the memory form after its read. -/
theorem compareOrdersUnsigned : Obligations.CompareOrdersUnsigned := by
  intro s v i hi
  have hexec : ∃ u : State, u.regs = s.regs ∧
      exec i s = .next (u.compareWith (aluSub s.regs.a v 0)) := by
    obtain rfl | ⟨r, rfl, rfl⟩ | ⟨rfl, rfl⟩ := hi
    · exact ⟨s, rfl, exec_onByte_operate .cp v s⟩
    · exact ⟨s, rfl, exec_onReg_operate .cp r s⟩
    · exact ⟨afterReadM s, rfl, exec_onM_operate .cp s⟩
  obtain ⟨u, hregs, hu⟩ := hexec
  exact ⟨_, hu, hregs, beq_iff_eq.trans (aluSub_value_eq_zero s.regs.a v),
    aluSub_carry s.regs.a v⟩

/-- ADI as an equation of numbers. -/
theorem exec_adi_toNat (s : State) (x v : Byte) : ∃ t, exec (.adi v) (s.writeReg .a x) = .next t ∧
    t.flags.c.toNat * 256 + t.regs.a.toNat = x.toNat + v.toNat :=
  ⟨_, rfl, aluAdd_toNat x v (Nat.zero_le 1)⟩

/-- ACI as an equation of numbers. -/
theorem exec_aci_toNat (s : State) (x v : Byte) : ∃ t, exec (.aci v) (s.writeReg .a x) = .next t ∧
    t.flags.c.toNat * 256 + t.regs.a.toNat = x.toNat + v.toNat + s.flags.c.toNat :=
  ⟨_, rfl, aluAdd_toNat x v (carryIn_le_one s.flags)⟩

/-- SUI as an equation of numbers. -/
theorem exec_sui_toNat (s : State) (x v : Byte) : ∃ t, exec (.sui v) (s.writeReg .a x) = .next t ∧
    t.regs.a.toNat + v.toNat = t.flags.c.toNat * 256 + x.toNat :=
  ⟨_, rfl, aluSub_toNat x v (Nat.zero_le 1)⟩

/-- SBI as an equation of numbers. -/
theorem exec_sbi_toNat (s : State) (x v : Byte) : ∃ t, exec (.sbi v) (s.writeReg .a x) = .next t ∧
    t.regs.a.toNat + v.toNat + s.flags.c.toNat = t.flags.c.toNat * 256 + x.toNat :=
  ⟨_, rfl, aluSub_toNat x v (carryIn_le_one s.flags)⟩

/-- Settles O43: 256 times the equation of the high bytes and the equation of the low bytes make the
one of the 16-bit numbers; the carry between them cancels. -/
theorem carryJoinsBytes : Obligations.CarryJoinsBytes := by
  intro s lo hi v w
  constructor
  · obtain ⟨t, ht, hlow⟩ := exec_adi_toNat s lo v
    obtain ⟨u, hu, hhigh⟩ := exec_aci_toNat t hi w
    exact ⟨t, u, ht, hu, by linear_combination hlow + 256 * hhigh⟩
  · obtain ⟨t, ht, hlow⟩ := exec_sui_toNat s lo v
    obtain ⟨u, hu, hhigh⟩ := exec_sbi_toNat t hi w
    exact ⟨t, u, ht, hu, by linear_combination hlow + 256 * hhigh⟩

end Sys2Proof.Claims

/-! PROOF of O44. The two shifts that the rotates are made of, on the number of a byte. -/

namespace Sys2Proof.Claims

open Sys2Proof.Machine

/-! ### Shifts and end bits as numbers -/

/-- A[6:0] ++ t is twice the number, mod 256, plus the bit that comes in (42_rotate.md R161). -/
theorem shiftInLow_toNat (v : Byte) (t : Bool) :
    (shiftInLow v t).toNat = v.toNat * 2 % 256 + t.toNat := by
  have ht : (BitVec.ofBool t).toNat < 2 ^ 1 := (BitVec.ofBool t).isLt
  rw [shiftInLow, BitVec.toNat_append, ← Nat.shiftLeft_add_eq_or_of_lt ht, Nat.shiftLeft_eq,
    BitVec.extractLsb'_toNat, Nat.shiftRight_zero, BitVec.toNat_ofBool]
  omega

/-- t ++ A[7:1] is half the number plus 128 times the bit that comes in (42_rotate.md R162). -/
theorem shiftInHigh_toNat (v : Byte) (t : Bool) :
    (shiftInHigh v t).toNat = v.toNat / 2 + t.toNat * 128 := by
  have hv : v.toNat < 256 := v.isLt
  have hlow : (v.extractLsb' 1 7).toNat < 2 ^ 7 := (v.extractLsb' 1 7).isLt
  rw [shiftInHigh, BitVec.toNat_append, ← Nat.shiftLeft_add_eq_or_of_lt hlow, Nat.shiftLeft_eq,
    BitVec.extractLsb'_toNat, Nat.shiftRight_eq_div_pow, BitVec.toNat_ofBool]
  omega

theorem bit7_eq_decide (v : Byte) : v[7] = decide (128 ≤ v.toNat) := BitVec.msb_eq_decide v

theorem bit0_eq_decide (v : Byte) : v[0] = decide (v.toNat % 2 = 1) := Nat.testBit_zero v.toNat

theorem bit7_toNat (v : Byte) : v[7].toNat = v.toNat / 128 := by
  have hv : v.toNat < 256 := v.isLt
  rw [bit7_eq_decide, Bool.toNat, Bool.cond_decide]
  split <;> omega

theorem bit0_toNat (v : Byte) : v[0].toNat = v.toNat % 2 := by
  rw [bit0_eq_decide, Bool.toNat, Bool.cond_decide]
  split <;> omega

theorem shiftInLow_bit7_toNat (v : Byte) :
    (shiftInLow v v[7]).toNat = v.toNat * 2 % 256 + v.toNat / 128 := by
  rw [shiftInLow_toNat, bit7_toNat]

theorem shiftInHigh_bit0_toNat (v : Byte) :
    (shiftInHigh v v[0]).toNat = v.toNat / 2 + v.toNat % 2 * 128 := by
  rw [shiftInHigh_toNat, bit0_toNat]

/-! ### The rotates as numbers -/

/-- A rotate to the byte of number `x`: A and the carry are written, nothing else is. -/
theorem next_rotateTo_of_toNat (s : State) {v : Byte} {x : Nat} {b c : Bool} (hv : v.toNat = x)
    (hb : b = c) : (.next (s.rotateTo v b) : Result) = .next { s with
      regs := { s.regs with a := BitVec.ofNat 8 x }
      flags := { s.flags with c := c } } := by
  rw [← hv, BitVec.ofNat_toNat, BitVec.setWidth_eq, hb]
  rfl

/-- Settles O44: each rotate is one of the two shifts, with bit 7, bit 0 or the old carry coming
in. -/
theorem rotatesMoveOneBit : Obligations.RotatesMoveOneBit := by
  rintro s i b x c (⟨rfl, rfl, rfl, rfl⟩ | ⟨rfl, rfl, rfl, rfl⟩ | ⟨rfl, rfl, rfl, rfl⟩ |
    ⟨rfl, rfl, rfl, rfl⟩)
  · exact ⟨form_of_encode rfl rfl rfl rfl,
      next_rotateTo_of_toNat s (shiftInLow_bit7_toNat s.acc) (bit7_eq_decide s.acc)⟩
  · exact ⟨form_of_encode rfl rfl rfl rfl,
      next_rotateTo_of_toNat s (shiftInHigh_bit0_toNat s.acc) (bit0_eq_decide s.acc)⟩
  · exact ⟨form_of_encode rfl rfl rfl rfl,
      next_rotateTo_of_toNat s (shiftInLow_toNat s.acc s.flags.c) (bit7_eq_decide s.acc)⟩
  · exact ⟨form_of_encode rfl rfl rfl rfl,
      next_rotateTo_of_toNat s (shiftInHigh_toNat s.acc s.flags.c) (bit0_eq_decide s.acc)⟩

end Sys2Proof.Claims

/-! PROOF of O45. A function that turns a ring of `w` bits by some number of places is the identity
on them after `w` times: RLC and RRC turn the eight bits of A, RAL and RAR the nine of A and the
carry. -/

namespace Sys2Proof.Claims

open Sys2Proof.Machine

/-! ### Turning a ring of bits -/

/-- `f` turns the ring of the `w` bits that `bit` reads by `d` places. -/
def TurnsRing {α : Type} (bit : α → Nat → Bool) (w d : Nat) (f : α → α) : Prop :=
  ∀ p i, i < w → bit (f p) i = bit p ((i + d) % w)

theorem TurnsRing.iterate {α : Type} {bit : α → Nat → Bool} {w d : Nat} {f : α → α}
    (h : TurnsRing bit w d f) (n : Nat) : TurnsRing bit w (n * d) f^[n] := by
  intro p i hi
  induction n generalizing p with
  | zero => rw [Nat.zero_mul, Nat.add_zero, Nat.mod_eq_of_lt hi, Function.iterate_zero_apply]
  | succ n ih =>
    rw [Function.iterate_succ_apply, ih, h p _ (Nat.mod_lt _ (Nat.zero_lt_of_lt hi)),
      Nat.mod_add_mod, Nat.succ_mul, Nat.add_assoc]

/-- As many turns as the ring has bits bring every bit back to its place. -/
theorem TurnsRing.comes_round {α : Type} {bit : α → Nat → Bool} {w d : Nat} {f : α → α}
    (h : TurnsRing bit w d f) (p : α) (i : Nat) (hi : i < w) : bit (f^[w] p) i = bit p i := by
  rw [h.iterate w p i hi, Nat.add_mul_mod_self_left, Nat.mod_eq_of_lt hi]

/-! ### The rotates on A and the carry -/

/-- A and the carry, all that a rotate reads and writes (42_rotate.md R160). -/
def accCarry (s : State) : Byte × Bool := (s.acc, s.flags.c)

/-- A and the carry taken to what `f` makes of them. -/
def rotatedBy (f : Byte × Bool → Byte × Bool) (s : State) : State :=
  s.rotateTo (f (accCarry s)).1 (f (accCarry s)).2

/-- RLC on A and the carry (42_rotate.md R161). -/
def rlcPair (p : Byte × Bool) : Byte × Bool := (shiftInLow p.1 p.1[7], p.1[7])

/-- RRC on A and the carry (42_rotate.md R162). -/
def rrcPair (p : Byte × Bool) : Byte × Bool := (shiftInHigh p.1 p.1[0], p.1[0])

/-- RAL on A and the carry (42_rotate.md R163). -/
def ralPair (p : Byte × Bool) : Byte × Bool := (shiftInLow p.1 p.2, p.1[7])

/-- RAR on A and the carry (42_rotate.md R164). -/
def rarPair (p : Byte × Bool) : Byte × Bool := (shiftInHigh p.1 p.2, p.1[0])

theorem exec_rlc (s : State) : exec .rlc s = .next (rotatedBy rlcPair s) := rfl

theorem exec_rrc (s : State) : exec .rrc s = .next (rotatedBy rrcPair s) := rfl

theorem exec_ral (s : State) : exec .ral s = .next (rotatedBy ralPair s) := rfl

theorem exec_rar (s : State) : exec .rar s = .next (rotatedBy rarPair s) := rfl

theorem rotatedBy_regs_of_fst {f : Byte × Bool → Byte × Bool} {s : State}
    (h : (f (accCarry s)).1 = s.acc) : (rotatedBy f s).regs = s.regs := by
  rw [rotatedBy, rotateTo_regs, h]
  rfl

theorem rotatedBy_eq_self {f : Byte × Bool → Byte × Bool} {s : State}
    (h : f (accCarry s) = accCarry s) : rotatedBy f s = s := by
  rw [rotatedBy, h]
  rfl

/-- A rotate executed `n` times in a row. -/
theorem execAll_replicate_rotate {i : Instr} {f : Byte × Bool → Byte × Bool}
    (h : ∀ s, exec i s = .next (rotatedBy f s)) (n : Nat) (s : State) :
    execAll (List.replicate n i) s = .next (rotatedBy f^[n] s) := by
  induction n generalizing s with
  | zero => rfl
  | succ n ih =>
    rw [List.replicate_succ, execAll_cons_of_next _ (h s), ih]
    rfl

/-! ### The bits that a shift moves -/

theorem getLsbD_shiftInLow_zero (v : Byte) (t : Bool) : (shiftInLow v t).getLsbD 0 = t := by
  rw [shiftInLow, BitVec.getLsbD_append]
  simp

theorem getLsbD_shiftInLow_succ (v : Byte) (t : Bool) {i : Nat} (hi : i < 7) :
    (shiftInLow v t).getLsbD (i + 1) = v.getLsbD i := by
  rw [shiftInLow, BitVec.getLsbD_append]
  simp [hi]

theorem getLsbD_shiftInHigh_seven (v : Byte) (t : Bool) : (shiftInHigh v t).getLsbD 7 = t := by
  rw [shiftInHigh, BitVec.getLsbD_append]
  simp

theorem getLsbD_shiftInHigh_of_lt (v : Byte) (t : Bool) {i : Nat} (hi : i < 7) :
    (shiftInHigh v t).getLsbD i = v.getLsbD (i + 1) := by
  rw [shiftInHigh, BitVec.getLsbD_append]
  simp [hi, Nat.add_comm]

/-! ### The ring around the carry -/

/-- The ring of RLC and RRC: the bits of A. -/
def accBit (p : Byte × Bool) (i : Nat) : Bool := p.1.getLsbD i

theorem fst_eq_of_accBit {p q : Byte × Bool} (h : ∀ i, i < 8 → accBit p i = accBit q i) :
    p.1 = q.1 :=
  BitVec.eq_of_getLsbD_eq h

theorem rlcPair_turnsRing : TurnsRing accBit 8 7 rlcPair := by
  intro p i hi
  cases i with
  | zero => exact getLsbD_shiftInLow_zero p.1 p.1[7]
  | succ i =>
    have hplace : (i + 1 + 7) % 8 = i := by omega
    rw [hplace]
    exact getLsbD_shiftInLow_succ p.1 p.1[7] (Nat.lt_of_succ_lt_succ hi)

theorem rrcPair_turnsRing : TurnsRing accBit 8 1 rrcPair := by
  intro p i hi
  obtain rfl | hlow : i = 7 ∨ i < 7 := by omega
  · exact getLsbD_shiftInHigh_seven p.1 p.1[0]
  · rw [Nat.mod_eq_of_lt (Nat.succ_lt_succ hlow)]
    exact getLsbD_shiftInHigh_of_lt p.1 p.1[0] hlow

/-! ### The ring through the carry -/

/-- The ring of RAL and RAR: the bits of A, and the carry above bit 7. -/
def accCarryBit (p : Byte × Bool) (i : Nat) : Bool := if i = 8 then p.2 else p.1.getLsbD i

theorem accCarryBit_of_lt (p : Byte × Bool) {i : Nat} (hi : i < 8) :
    accCarryBit p i = p.1.getLsbD i := if_neg (Nat.ne_of_lt hi)

theorem eq_of_accCarryBit {p q : Byte × Bool}
    (h : ∀ i, i < 9 → accCarryBit p i = accCarryBit q i) : p = q := by
  refine Prod.ext (BitVec.eq_of_getLsbD_eq fun i hi => ?_) (h 8 (by decide))
  rw [← accCarryBit_of_lt p hi, ← accCarryBit_of_lt q hi]
  exact h i (Nat.lt_succ_of_lt hi)

theorem ralPair_turnsRing : TurnsRing accCarryBit 9 8 ralPair := by
  intro p i hi
  cases i with
  | zero => exact getLsbD_shiftInLow_zero p.1 p.2
  | succ i =>
    obtain rfl | hlow : i = 7 ∨ i < 7 := by omega
    · rfl
    · have hplace : (i + 1 + 8) % 9 = i := by omega
      rw [hplace, accCarryBit_of_lt _ (Nat.succ_lt_succ hlow),
        accCarryBit_of_lt _ (Nat.lt_succ_of_lt hlow)]
      exact getLsbD_shiftInLow_succ p.1 p.2 hlow

theorem rarPair_turnsRing : TurnsRing accCarryBit 9 1 rarPair := by
  intro p i hi
  obtain rfl | rfl | hlow : i = 8 ∨ i = 7 ∨ i < 7 := by omega
  · rfl
  · exact getLsbD_shiftInHigh_seven p.1 p.2
  · have hplace : (i + 1) % 9 = i + 1 := by omega
    rw [hplace, accCarryBit_of_lt _ (Nat.lt_succ_of_lt hlow),
      accCarryBit_of_lt _ (Nat.succ_lt_succ hlow)]
    exact getLsbD_shiftInHigh_of_lt p.1 p.2 hlow

/-! ### The obligation -/

/-- Settles O45: eight turns of the ring around the carry, nine of the ring through it. -/
theorem rotatesComeRound : Obligations.RotatesComeRound := by
  intro s
  refine ⟨⟨_, execAll_replicate_rotate exec_rlc 8 s, ?rlc⟩,
    ⟨_, execAll_replicate_rotate exec_rrc 8 s, ?rrc⟩,
    (execAll_replicate_rotate exec_ral 9 s).trans (congrArg Host.Outcome.next ?ral),
    (execAll_replicate_rotate exec_rar 9 s).trans (congrArg Host.Outcome.next ?rar)⟩
  case rlc => exact rotatedBy_regs_of_fst (fst_eq_of_accBit (rlcPair_turnsRing.comes_round _))
  case rrc => exact rotatedBy_regs_of_fst (fst_eq_of_accBit (rrcPair_turnsRing.comes_round _))
  case ral => exact rotatedBy_eq_self (eq_of_accCarryBit (ralPair_turnsRing.comes_round _))
  case rar => exact rotatedBy_eq_self (eq_of_accCarryBit (rarPair_turnsRing.comes_round _))

end Sys2Proof.Claims

/-! PROOF of O46, O47, O48 and O49. The form of an instruction with a target, the two senses of a
condition, and then each transfer as the state operation that it is; `withPc`, `called` and
`returned` are by definition the model's `setPc`, `push` and `pop`. -/

namespace Sys2Proof.Claims

open Sys2Proof.Machine

/-! ### Operand bytes that hold a target -/

@[simp] theorem lowAddress_targetOf (b2 b3 : Byte) : lowAddress (targetOf b2 b3) = b2 :=
  BitVec.extractLsb'_append_eq_right

@[simp] theorem highAddress_targetOf (b2 b3 : Byte) :
    highAddress (targetOf b2 b3) = (0 : BitVec 2) ++ b3.extractLsb' 0 6 :=
  congrArg ((0 : BitVec 2) ++ ·) BitVec.extractLsb'_append_eq_left

/-- The form of an instruction with a target may be read off its canonical bytes, for any two
operand bytes: they differ from the canonical ones in the bits that are ignored (30_encoding.md R84,
R97). -/
theorem form_of_encode_target {i : Instr} {b b2 b3 : Byte} {cycles : List CycleType} {states : Nat}
    (hwf : i.WellFormed)
    (hbytes : encode i = [b, lowAddress (targetOf b2 b3), highAddress (targetOf b2 b3)])
    (hcycles : (instrCycles i true).map (·.1) = cycles) (hstates : instrStates i true = states) :
    Form i [b, b2, b3] cycles states := by
  have hread := readAs_encode hwf
  have hcount := encode_length i
  rw [hbytes] at hread hcount
  have hlen : instrLength b = 3 := calc
    instrLength b = operandCount i + 1 :=
      (instrLength_eq_operandCount b _ _).trans (congrArg (operandCount · + 1) hread)
    _ = 3 := hcount.symm
  rw [lowAddress_targetOf, highAddress_targetOf] at hbytes
  obtain ⟨_, hdecode, _⟩ := form_of_encode hwf hbytes hcycles hstates
  exact ⟨hwf, (decode_third_byte hlen b2 b3 0).symm.trans hdecode, hcycles, hstates⟩

/-! ### The two senses of a condition -/

theorem cond_eq_flagNamed (f : Flags) (c : Cond) : f.cond c = flagNamed f c := by
  cases c <;> rfl

/-- Sense F: the instruction acts where the flag is 0 (30_encoding.md R87). -/
theorem ite_not_cond {α : Type} (f : Flags) (c : Cond) (x y : α) :
    (if !f.cond c then x else y) = if flagNamed f c = false then x else y := by
  simp only [cond_eq_flagNamed, Bool.not_eq_true']

/-- Sense T: the instruction acts where the flag is 1 (30_encoding.md R87). -/
theorem ite_cond {α : Type} (f : Flags) (c : Cond) (x y : α) :
    (if f.cond c then x else y) = if flagNamed f c = true then x else y := by
  rw [cond_eq_flagNamed]

/-! ### Jumps -/

/-- Settles O46: each jump writes PC, or leaves the state as it is. -/
theorem jumpsSetPc : Obligations.JumpsSetPc := by
  intro c x b2 b3 s
  refine ⟨⟨rfl, decode_jmp x b2 b3, rfl, rfl⟩, form_of_encode_target rfl ?_ rfl rfl,
    form_of_encode_target rfl ?_ rfl rfl, fun t => ⟨rfl, rfl, rfl, ?jfc, ?jtc⟩⟩
  case jfc => exact congrArg Host.Outcome.next (ite_not_cond s.flags c (withPc s t) s)
  case jtc => exact congrArg Host.Outcome.next (ite_cond s.flags c (withPc s t) s)
  all_goals cases c <;> rfl

/-! ### Calls -/

/-- Settles O47: each call is `Push`, which leaves the return address below, or leaves the state as
it is. -/
theorem callsPush : Obligations.CallsPush := by
  intro c x b2 b3 s
  refine ⟨⟨rfl, decode_cal x b2 b3, rfl, rfl⟩, form_of_encode_target rfl ?_ rfl rfl,
    form_of_encode_target rfl ?_ rfl rfl, fun t => ?exec⟩
  case exec =>
    obtain ⟨hpc, hreturn, _⟩ := push_spec s t
    exact ⟨rfl, rfl, exec_cal t s,
      congrArg Host.Outcome.next (ite_not_cond s.flags c (called s t) s),
      congrArg Host.Outcome.next (ite_cond s.flags c (called s t) s), hpc, hreturn⟩
  all_goals cases c <;> rfl

/-! ### Returns -/

/-- Settles O48: each return is `Pop`, or leaves the state as it is. -/
theorem returnsPop : Obligations.ReturnsPop := by
  intro c x s
  obtain ⟨hpc, _⟩ := pop_spec s
  refine ⟨⟨rfl, decode_ret x, rfl, rfl⟩, form_of_encode rfl ?_ rfl rfl,
    form_of_encode rfl ?_ rfl rfl, rfl, rfl, exec_ret s,
    congrArg Host.Outcome.next (ite_not_cond s.flags c (returned s) s),
    congrArg Host.Outcome.next (ite_cond s.flags c (returned s) s), hpc⟩
  all_goals cases c <;> rfl

/-! ### Restart -/

/-- The fields of the target of RST are the number 8 * AAA (30_encoding.md R88). -/
theorem restartTarget_eq (aaa : BitVec 3) :
    restartTarget aaa = BitVec.ofNat 14 (8 * aaa.toNat) := by
  revert aaa
  decide

/-- RST is `Push` of its target (43_control_transfer.md R180). -/
theorem exec_rst (aaa : BitVec 3) (s : State) :
    exec (.rst aaa) s = .next (s.push (BitVec.ofNat 14 (8 * aaa.toNat))) := by
  rw [← restartTarget_eq]
  rfl

/-- Settles O49: RST and CAL are the same `Push`. -/
theorem restartCallsEightTimesAaa : Obligations.RestartCallsEightTimesAaa := fun aaa s =>
  ⟨form_of_encode rfl rfl rfl rfl, exec_rst aaa s,
    (exec_rst aaa s).trans (exec_cal (BitVec.ofNat 14 (8 * aaa.toNat)) s).symm⟩

end Sys2Proof.Claims

/-! PROOF of O50 and O51. The byte that INP takes, by the schedule and after its end; then INP and
OUT as their one PCC cycle, INP with the load of A that follows it. -/

namespace Sys2Proof.Claims

open Sys2Proof.Machine

/-! ### The byte an input device drives -/

theorem inputData_of_cons {s : State} {v : Byte} {rest : List Byte} (h : s.inputs = v :: rest)
    (port : BitVec 3) : s.inputData port = v := by
  rw [State.inputData, h]

theorem inputData_of_nil {s : State} (h : s.inputs = []) (port : BitVec 3) :
    s.inputData port = Config.inputByte port s.acc s.events.length := by
  rw [State.inputData, h]
  rfl

/-! ### The two instructions -/

/-- INP is `IoIn`, which shows the old A, and then a load of A (44_input_output.md R191). -/
theorem exec_inp (port : BitVec 3) (s : State) :
    exec (.inp port) s = .next ((s.ioIn port).2.writeReg .a (s.inputData port)) := rfl

/-- OUT is `IoOut` (44_input_output.md R192). -/
theorem exec_out (port : BitVec 5) (s : State) : exec (.out port) s = .next (s.ioOut port) := rfl

/-! ### The obligations -/

/-- Settles O50: the byte that A takes is the one recorded in the cycle. -/
theorem inputLoadsA : Obligations.InputLoadsA := fun port s =>
  ⟨form_of_encode rfl rfl rfl rfl, s.inputData port, exec_inp port s,
    fun _ _ h => inputData_of_cons h port, fun h => inputData_of_nil h port, rfl⟩

/-- Settles O51: that the port is 8 or more makes OUT well formed; its effect and its pins need no
such bound. -/
theorem outputShowsA : Obligations.OutputShowsA := fun port s hport =>
  ⟨form_of_encode (decide_eq_true hport) rfl rfl rfl, exec_out port s, rfl⟩

end Sys2Proof.Claims

/-! PROOF of O8, O52 and O57. HLT does nothing but stop the processor; a STOPPED processor stays as
it is, and shows that it is STOPPED, until an interrupt is requested. -/

namespace Sys2Proof.Claims

open Sys2Proof.Machine

/-! ### Quiet boundaries -/

/-- Quiet boundaries in a row are one without a request and then the others. -/
theorem quietFor_succ {k : Nat} {s : State} :
    QuietFor (k + 1) s ↔ NoRequest s ∧ QuietFor k { s with intSource := s.intSource.tail } := by
  simp only [QuietFor, NoRequest, Nat.forall_lt_succ_left, List.getElem?_tail,
    ← List.head?_eq_getElem?]

/-- Settles O8, by induction on the number of boundaries: each leaves the processor STOPPED and
moves on to the next answer. -/
theorem stoppedUntilInterrupted : Obligations.StoppedUntilInterrupted := by
  intro k s hs hq
  induction k generalizing s with
  | zero => rfl
  | succ k ih =>
    obtain ⟨hnow, hlater⟩ := quietFor_succ.mp hq
    have hrest := ih { s with intSource := s.intSource.tail } hs hlater
    rw [List.drop_tail] at hrest
    exact (runsTo_succ (step_while_stopped hs hnow)).mpr hrest

/-! ### HLT -/

/-- HLT does nothing but stop the processor (45_machine.md R200). -/
theorem exec_hlt (s : State) : exec .hlt s = .next { s with run := .stopped } := rfl

/-- The code FF is a HLT too (30_encoding.md R98). -/
theorem exec_hltFF (s : State) : exec .hltFF s = .next { s with run := .stopped } := rfl

theorem stopped_of_exec_halt {s t : State} (h : exec .hlt s = .next t ∨ exec .hltFF s = .next t) :
    t.run = .stopped := by
  rcases h with h | h
  · rw [exec_hlt] at h
    cases h
    rfl
  · rw [exec_hltFF] at h
    cases h
    rfl

/-- Settles O52. The code 01 is not the canonical one, so it is decoded by itself. -/
theorem haltStops : Obligations.HaltStops :=
  ⟨form_of_encode rfl rfl rfl rfl, ⟨rfl, rfl, rfl, rfl⟩, form_of_encode rfl rfl rfl rfl,
    fun s => ⟨exec_hlt s, exec_hltFF s⟩⟩

/-! ### What is shown -/

theorem shown_while_stopped {s : State} (hs : s.run = .stopped) (hq : NoRequest s) :
    s.shown = (.stopped, .floating) := by
  rcases shown_cases s with ⟨⟨j, rest, hj⟩, _⟩ | ⟨_, _, e⟩ | ⟨_, hrun, _⟩
  · rw [NoRequest, hj] at hq
    cases hq
  · exact e
  · rw [hs] at hrun
    cases hrun

/-- A request shows at once, whatever the run state (60_exceptions.md R213). -/
theorem shown_of_request {s : State} {j : Jam} {rest : List (Option Jam)}
    (h : s.intSource = some j :: rest) : s.shown = (.t1i, .driven (addressT1 s.pc)) := by
  rcases shown_cases s with ⟨_, e⟩ | ⟨hq, _⟩ | ⟨hq, _⟩
  · exact e
  all_goals
    rw [h] at hq
    cases hq

/-- The code 110 is that of STOPPED alone (20_memory.md R52). -/
theorem tstate_lines_eq_stopped_iff (t : TState) : t.lines = 0b110 ↔ t = .stopped := by
  cases t <;> decide

/-- Of the states that a boundary can show, T1I needs a request and T1 a running processor. -/
theorem lines_eq_stopped_iff (s : State) :
    s.lines = 0b110 ↔ s.run = .stopped ∧ NoRequest s := by
  rw [State.lines, tstate_lines_eq_stopped_iff, NoRequest]
  rcases shown_cases s with ⟨⟨j, rest, hj⟩, e⟩ | ⟨hq, hs, e⟩ | ⟨_, hrun, e⟩
  · simp [e, hj]
  · simp [e, hq, hs]
  · simp [e, hrun]

/-- Settles O57, clause by clause. -/
theorem stoppedIsShown : Obligations.StoppedIsShown := by
  refine ⟨lines_eq_stopped_iff, fun s hs hq => ?_, fun s t h hq => ?_, fun s j rest h => ?_,
    fun p => ⟨rfl, rfl⟩⟩
  · rw [shown_while_stopped hs hq]
  · have hs := stopped_of_exec_halt h
    exact ⟨(lines_eq_stopped_iff t).mpr ⟨hs, hq⟩, by rw [shown_while_stopped hs hq]⟩
  · rw [State.lines, shown_of_request h]
    exact ⟨rfl, rfl⟩

end Sys2Proof.Claims

/-! SUPPORT for O5, O6, O17, O19 and O53. The bytes that the bus brings, put together to the instruction
and the state that an instruction boundary hands on. -/

namespace Sys2Proof.Claims

open Sys2Proof.Machine

/-! ### What the bus brings -/

/-- Two states in which the bus brings the same bytes: it depends on memory, on what answers there,
and, where nothing does, on the position in the history (20_memory.md R56, R68; log 11). -/
structure SameBus (s t : State) : Prop where
  mem : t.mem = s.mem
  memMap : t.memMap = s.memMap
  events : t.events = s.events

theorem SameBus.cons {s t : State} (h : SameBus s t) (e : BusEvent) :
    SameBus { s with events := e :: s.events } { t with events := e :: t.events } :=
  ⟨h.mem, h.memMap, congrArg (e :: ·) h.events⟩

theorem SameBus.busByte {s t : State} (h : SameBus s t) (a : Addr) : t.busByte a = s.busByte a := by
  obtain ⟨hmem, hmap, hevents⟩ := h
  simp only [State.busByte, State.kindAt, State.memByte, State.position, hmem, hmap, hevents]

theorem SameBus.brings {s t : State} (h : SameBus s t) {a : Addr} {src : BusSource} {b : Byte}
    (hb : Brings s a src b) : Brings t a src b := by
  cases src with
  | memoryAtPc => exact (h.busByte a).trans hb
  | supplied x => exact hb

theorem SameBus.bringsAll {s t : State} (h : SameBus s t) {a : Addr} {srcs : List BusSource}
    {bytes : List Byte} (hb : BringsAll s a srcs bytes) : BringsAll t a srcs bytes := by
  induction bytes generalizing s t a srcs with
  | nil => simp only [BringsAll]
  | cons b bytes ih =>
    cases srcs with
    | nil => exact hb
    | cons src srcs =>
      obtain ⟨hfirst, hrest⟩ := hb
      exact ⟨h.brings hfirst, ih (h.cons _) hrest⟩

theorem SameBus.fetchBrings {s t : State} (h : SameBus s t) (hpc : t.pc = s.pc) {b : Byte}
    {operands : List Byte} (hb : FetchBrings s b operands) : FetchBrings t b operands := by
  obtain ⟨hfirst, hrest⟩ := hb
  rw [FetchBrings, hpc]
  exact ⟨h.brings hfirst, (h.cons _).bringsAll hrest⟩

theorem SameBus.jamBrings {s t : State} (h : SameBus s t) (hpc : t.pc = s.pc) {j : Jam} {b : Byte}
    {operands : List Byte} (hb : JamBrings s j b operands) : JamBrings t j b operands := by
  obtain ⟨hfirst, hrest⟩ := hb
  rw [JamBrings, hpc]
  exact ⟨h.brings hfirst, (h.cons _).bringsAll hrest⟩

/-- The environment's answers are not on the bus. -/
theorem sameBus_intSource (s : State) (src : List (Option Jam)) :
    SameBus s { s with intSource := src } :=
  ⟨rfl, rfl, rfl⟩

/-! ### Operand cycles -/

/-- The state after an operand cycle that took this byte: the cycle in the history, PC on by one. -/
def afterOperand (s : State) (v : Byte) : State := (s.record (.operandFetch s.pc v)).advancePc

@[simp] theorem afterOperand_pc (s : State) (v : Byte) : (afterOperand s v).pc = s.pc + 1 :=
  setPc_pc _ _

/-- What a source brings is what a cycle at PC takes from it. -/
theorem sourceByte_of_brings {s : State} {src : BusSource} {v : Byte} (h : Brings s s.pc src v) :
    s.sourceByte src = v := by
  cases src <;> exact h

theorem fetchOperand_of_brings {s : State} {src : BusSource} {v : Byte} (h : Brings s s.pc src v) :
    s.fetchOperand src = (v, afterOperand s v) := by
  rw [State.fetchOperand, sourceByte_of_brings h]
  rfl

/-- What is brought after the first operand byte is brought in the state after its cycle. -/
theorem bringsAll_afterOperand {s : State} {v : Byte} {srcs : List BusSource} {bytes : List Byte}
    (h : BringsAll { s with events := .operandFetch s.pc v :: s.events } (s.pc + 1) srcs bytes) :
    BringsAll (afterOperand s v) (afterOperand s v).pc srcs bytes := by
  have hbus : SameBus { s with events := .operandFetch s.pc v :: s.events } (afterOperand s v) :=
    ⟨rfl, rfl, rfl⟩
  rw [afterOperand_pc]
  exact hbus.bringsAll h

/-- Operand cycles in a row: PC goes on by as many bytes, and the cycles are in the history. -/
theorem foldl_afterOperand (operands : List Byte) (s : State) :
    operands.foldl afterOperand s = { s with
      stack := stackSet s.stack s.sp (s.pc + BitVec.ofNat 14 operands.length)
      events := operandEvents s.pc operands ++ s.events } := by
  induction operands generalizing s with
  | nil =>
    have hstack : stackSet s.stack s.sp s.pc = s.stack := stackSet_self s.stack s.sp
    simp [operandEvents, hstack]
  | cons v operands ih =>
    have hpc : s.pc + 1 + BitVec.ofNat 14 operands.length =
        s.pc + BitVec.ofNat 14 (operands.length + 1) := by bv_omega
    have hstack : stackSet (afterOperand s v).stack s.sp
        (s.pc + BitVec.ofNat 14 (operands.length + 1)) =
        stackSet s.stack s.sp (s.pc + BitVec.ofNat 14 (operands.length + 1)) := stackSet_twice ..
    have hsp : (afterOperand s v).sp = s.sp := rfl
    have hevents : (afterOperand s v).events = .operandFetch s.pc v :: s.events := rfl
    rw [List.foldl_cons, ih, afterOperand_pc, hpc, hsp, hstack, hevents, List.length_cons,
      operandEvents, List.append_assoc]
    rfl

/-! ### The bytes of one instruction -/

/-- The bytes of exactly one instruction are as many as the first asks for (30_encoding.md R90). -/
theorem decode_one_cases {b : Byte} {operands : List Byte} {i : Instr}
    (h : decode (b :: operands) = .ok (i, [])) :
    (instrLength b = 1 ∧ operands = [] ∧ i = decodeBytes b 0 0) ∨
    (∃ b2, instrLength b = 2 ∧ operands = [b2] ∧ i = decodeBytes b b2 0) ∨
    ∃ b2 b3, instrLength b = 3 ∧ operands = [b2, b3] ∧ i = decodeBytes b b2 b3 := by
  rcases instrLength_cases b with hlen | hlen | hlen
  · simp only [decode, hlen] at h
    cases h
    exact .inl ⟨hlen, rfl, rfl⟩
  · match operands with
    | [] => simp [decode, hlen] at h
    | b2 :: rest =>
      simp only [decode, hlen] at h
      cases h
      exact .inr (.inl ⟨b2, hlen, rfl, rfl⟩)
  · match operands with
    | [] | [b2] => simp [decode, hlen] at h
    | b2 :: b3 :: rest =>
      simp only [decode, hlen] at h
      cases h
      exact .inr (.inr ⟨b2, b3, hlen, rfl, rfl⟩)

/-- Where the bus brings the operand bytes of an instruction, they are what is fetched after its
first byte. -/
theorem fetchRest_of_brings {s : State} {b : Byte} {src2 src3 : BusSource} {operands : List Byte}
    {i : Instr} (hd : decode (b :: operands) = .ok (i, []))
    (hb : BringsAll s s.pc [src2, src3] operands) :
    s.fetchRest b src2 src3 = (i, operands.foldl afterOperand s) := by
  rcases decode_one_cases hd with ⟨hlen, rfl, rfl⟩ | ⟨b2, hlen, rfl, rfl⟩ | ⟨b2, b3, hlen, rfl, rfl⟩
  · simp only [State.fetchRest, hlen, List.foldl_nil]
  · obtain ⟨hb2, _⟩ := hb
    simp only [State.fetchRest, hlen, fetchOperand_of_brings hb2, List.foldl_cons, List.foldl_nil]
  · obtain ⟨hb2, hrest⟩ := hb
    obtain ⟨hb3, _⟩ := bringsAll_afterOperand hrest
    simp only [State.fetchRest, hlen, fetchOperand_of_brings hb2, fetchOperand_of_brings hb3,
      List.foldl_cons, List.foldl_nil]

/-! ### The state that a fetch leaves -/

/-- Where the bus brings an instruction at PC, it is the one fetched, in the state `fetched` but for
the boundary's answer. -/
theorem fetchInstr_of_brings {s : State} {b : Byte} {operands : List Byte} {i : Instr}
    (hb : FetchBrings s b operands) (hd : decode (b :: operands) = .ok (i, [])) :
    s.fetchInstr = (i, { fetched s b operands with intSource := s.intSource }) := by
  obtain ⟨hfirst, hrest⟩ := hb
  obtain rfl : s.busByte s.pc = b := hfirst
  have hbus : SameBus { s with events := .opcodeFetch s.pc (s.busByte s.pc) :: s.events }
      s.fetchOpcode.2 := ⟨rfl, rfl, rfl⟩
  have hoperands : BringsAll s.fetchOpcode.2 s.fetchOpcode.2.pc [.memoryAtPc, .memoryAtPc]
      operands := fetchOpcode_pc s ▸ hbus.bringsAll hrest
  have hfetch : s.fetchInstr = (i, operands.foldl afterOperand s.fetchOpcode.2) :=
    fetchRest_of_brings hd hoperands
  rw [hfetch, foldl_afterOperand, fetchOpcode_pc, fetchOpcode_stack, fetchOpcode_sp, stackSet_twice]
  rfl

/-- Where an interrupt cycle and the operand cycles after it bring an instruction, it is the one
jammed, in the state `jammed` but for the boundary's answer. -/
theorem fetchJammed_of_brings {s : State} {j : Jam} {b : Byte} {operands : List Byte} {i : Instr}
    (hb : JamBrings s j b operands) (hd : decode (b :: operands) = .ok (i, [])) :
    s.fetchJammed j = (i, { jammed s b operands with intSource := s.intSource }) := by
  obtain ⟨hfirst, hrest⟩ := hb
  obtain rfl : s.sourceByte j.opcode = b := sourceByte_of_brings hfirst
  have hbus : SameBus { s with events := .interruptFetch s.pc (s.sourceByte j.opcode) :: s.events }
      (s.fetchInterrupt j).2 := ⟨rfl, rfl, rfl⟩
  have hfetch : s.fetchJammed j = (i, operands.foldl afterOperand (s.fetchInterrupt j).2) :=
    fetchRest_of_brings hd (hbus.bringsAll hrest)
  rw [hfetch, foldl_afterOperand]
  rfl

/-- A jammed instruction of one byte leaves the address stack as it was. -/
@[simp] theorem jammed_nil_stack (s : State) (b : Byte) : (jammed s b []).stack = s.stack := by
  have hstack : stackSet s.stack s.sp s.pc = s.stack := stackSet_self s.stack s.sp
  simpa [jammed] using hstack

/-! ### The boundary -/

/-- With a request the boundary takes the interrupt, whatever the run state
(60_exceptions.md R214). -/
theorem boundary_of_request {s : State} {j : Jam} {rest : List (Option Jam)}
    (h : s.intSource = some j :: rest) :
    s.boundary = (some (State.fetchJammed { s with intSource := s.intSource.tail } j).1,
      (State.fetchJammed { s with intSource := s.intSource.tail } j).2) := by
  rcases boundary_cases s with ⟨k, rest', hk, e⟩ | ⟨hq, _⟩ | ⟨hq, _⟩
  · rw [hk] at h
    cases h
    rw [e, hk, List.tail_cons]
  all_goals
    rw [h] at hq
    cases hq

theorem boundary_while_running {s : State} (hs : s.run = .running) (hq : NoRequest s) :
    s.boundary = (some (State.fetchInstr { s with intSource := s.intSource.tail }).1,
      (State.fetchInstr { s with intSource := s.intSource.tail }).2) := by
  rcases boundary_cases s with ⟨j, rest, hj, _⟩ | ⟨_, hrun, _⟩ | ⟨_, _, e⟩
  · rw [NoRequest, hj] at hq
    cases hq
  · rw [hs] at hrun
    cases hrun
  · exact e

theorem boundary_while_stopped {s : State} (hs : s.run = .stopped) (hq : NoRequest s) :
    s.boundary = (none, { s with intSource := s.intSource.tail }) := by
  rcases boundary_cases s with ⟨j, rest, hj, _⟩ | ⟨_, _, e⟩ | ⟨_, hrun, _⟩
  · rw [NoRequest, hj] at hq
    cases hq
  · exact e
  · rw [hs] at hrun
    cases hrun

/-- Where the bus brings the bytes of an instruction at PC, the boundary hands it on. -/
theorem boundary_of_fetchBrings {s : State} {b : Byte} {operands : List Byte} {i : Instr}
    (hs : s.run = .running) (hq : NoRequest s) (hb : FetchBrings s b operands)
    (hd : decode (b :: operands) = .ok (i, [])) :
    s.boundary = (some i, fetched s b operands) := by
  have hfetch := fetchInstr_of_brings ((sameBus_intSource s s.intSource.tail).fetchBrings rfl hb) hd
  rw [boundary_while_running hs hq, hfetch]
  rfl

/-- Where an interrupt cycle and the operand cycles after it bring the bytes of an instruction, the
boundary hands it on. -/
theorem boundary_of_jamBrings {s : State} {j : Jam} {rest : List (Option Jam)} {b : Byte}
    {operands : List Byte} {i : Instr} (hj : s.intSource = some j :: rest)
    (hb : JamBrings s j b operands) (hd : decode (b :: operands) = .ok (i, [])) :
    s.boundary = (some i, jammed s b operands) := by
  have hfetch := fetchJammed_of_brings ((sameBus_intSource s s.intSource.tail).jamBrings rfl hb) hd
  rw [boundary_of_request hj, hfetch]
  rfl

theorem step_of_boundary {s u : State} {i : Instr} (h : s.boundary = (some i, u)) :
    step s = exec i u := by
  rw [step, h]

end Sys2Proof.Claims

/-! PROOF of O5, O6, O16, O17 and O19. What a step executes, and what can stop it. -/

namespace Sys2Proof.Claims

open Sys2Proof.Machine

/-! ### What a step executes -/

/-- Settles O5. -/
theorem stepRunsStoredInstruction : Obligations.StepRunsStoredInstruction :=
  fun _ _ _ _ hs hq hb hd => step_of_boundary (boundary_of_fetchBrings hs hq hb hd)

/-- Settles O6. -/
theorem stepRunsJammedInstruction : Obligations.StepRunsJammedInstruction :=
  fun _ _ _ _ _ _ hj hb hd => step_of_boundary (boundary_of_jamBrings hj hb hd)

/-! ### What completes -/

/-- Settles O16: the arms of the six undefined rows are the only ones that do not answer a next
state. -/
theorem definedInstructionsComplete : Obligations.DefinedInstructionsComplete := by
  intro i s hi
  cases i
  case undefined22 | undefined2A | undefined32 | undefined3A | undefined38 | undefined39 => cases hi
  all_goals exact ⟨_, rfl⟩

theorem exec_definedByte {b : Byte} (h : b ∉ undefinedBytes) (b2 b3 : Byte) (s : State) :
    ∃ t, exec (decodeBytes b b2 b3) s = .next t := by
  refine definedInstructionsComplete _ s ?_
  rwa [← decodeBytes_isUndefined b b2 b3, Bool.not_eq_true] at h

/-! ### Where the byte in the instruction register comes from -/

/-- A first byte fetched from memory is in the instruction register, with the address of PC. -/
theorem fetchInstr_origin (s : State) :
    s.fetchInstr.2.ir = s.busByte s.pc ∧ s.fetchInstr.2.irOrigin = .memory s.pc := by
  obtain ⟨_, _, _, _, hir, horigin, _⟩ :=
    fetchRest_frame s.fetchOpcode.2 s.fetchOpcode.1 .memoryAtPc .memoryAtPc
  exact ⟨hir, horigin⟩

/-- A first byte taken in an interrupt cycle is in the instruction register, marked as jammed. -/
theorem fetchJammed_origin (s : State) (j : Jam) :
    (s.fetchJammed j).2.ir = s.sourceByte j.opcode ∧ (s.fetchJammed j).2.irOrigin = .jammed := by
  obtain ⟨_, _, _, _, hir, horigin, _⟩ :=
    fetchRest_frame (s.fetchInterrupt j).2 (s.fetchInterrupt j).1 j.b2 j.b3
  exact ⟨hir, horigin⟩

theorem brings_sourceByte (s : State) (src : BusSource) : Brings s s.pc src (s.sourceByte src) := by
  cases src <;> exact rfl

/-- The instruction that a boundary hands on is one of the byte in the instruction register. -/
theorem boundary_decoded {s u : State} {i : Instr} (h : s.boundary = (some i, u)) :
    ∃ b2 b3, i = decodeBytes u.ir b2 b3 := by
  rcases boundary_cases s with ⟨j, rest, _, e⟩ | ⟨_, _, e⟩ | ⟨_, _, e⟩
  · cases e.symm.trans h
    exact fetchJammed_decoded _ j
  · cases e.symm.trans h
  · cases e.symm.trans h
    exact fetchInstr_decoded _

/-- A byte that is marked as fetched from memory is what the bus brings at PC. -/
theorem boundary_fetched_origin {s u : State} {i : Instr} (h : s.boundary = (some i, u)) {a : Addr}
    (ha : u.irOrigin = .memory a) : a = s.pc ∧ u.ir = s.busByte s.pc := by
  rcases boundary_cases s with ⟨j, rest, _, e⟩ | ⟨_, _, e⟩ | ⟨_, _, e⟩
  · cases e.symm.trans h
    obtain ⟨_, horigin⟩ := fetchJammed_origin { s with intSource := rest } j
    rw [horigin] at ha
    cases ha
  · cases e.symm.trans h
  · cases e.symm.trans h
    obtain ⟨hir, horigin⟩ := fetchInstr_origin { s with intSource := s.intSource.tail }
    rw [horigin] at ha
    cases ha
    exact ⟨rfl, hir⟩

/-- With a request the byte is marked as jammed, and it is what its source brings. -/
theorem boundary_jammed_origin {s u : State} {i : Instr} (h : s.boundary = (some i, u)) {j : Jam}
    {rest : List (Option Jam)} (hj : s.intSource = some j :: rest) :
    u.irOrigin = .jammed ∧ Brings s s.pc j.opcode u.ir := by
  cases (boundary_of_request hj).symm.trans h
  obtain ⟨hir, horigin⟩ := fetchJammed_origin { s with intSource := s.intSource.tail } j
  refine ⟨horigin, hir ▸ ?_⟩
  exact (sameBus_intSource { s with intSource := s.intSource.tail } s.intSource).brings
    (brings_sourceByte _ j.opcode)

/-- Settles O17: the instruction handed on is decoded from the byte in the instruction register, and
that byte alone decides whether it completes. -/
theorem onlyUndefinedBytesStop : Obligations.OnlyUndefinedBytesStop := by
  intro s u
  refine ⟨fun h => by rw [step, h], fun i h => ?_⟩
  obtain ⟨b2, b3, rfl⟩ := boundary_decoded h
  rw [step_of_boundary h]
  exact ⟨fun hb => exec_definedByte hb b2 b3 u, fun hb => exec_undefinedByte hb b2 b3 u,
    fun _ => boundary_fetched_origin h, fun _ _ => boundary_jammed_origin h⟩

/-- An undefined first byte is an instruction by itself (log 18). -/
theorem decode_undefinedByte {b : Byte} (h : b ∈ undefinedBytes) :
    decode [b] = .ok (decodeBytes b 0 0, []) := by
  simp only [undefinedBytes, List.mem_cons, List.not_mem_nil, or_false] at h
  rcases h with rfl | rfl | rfl | rfl | rfl | rfl
  all_goals rfl

/-- Settles O19: the boundary hands on the one byte, in a state that holds its origin. -/
theorem undefinedFaultCarriesOrigin : Obligations.UndefinedFaultCarriesOrigin := by
  constructor
  · intro s b hb hs hq hbyte
    have hbrings : FetchBrings s b [] := ⟨hbyte, trivial⟩
    have hboundary := boundary_of_fetchBrings hs hq hbrings (decode_undefinedByte hb)
    exact ⟨_, hboundary, (step_of_boundary hboundary).trans (exec_undefinedByte hb 0 0 _)⟩
  · intro s b x y rest hb hj
    have hbrings : JamBrings s ⟨.supplied b, x, y⟩ b [] := ⟨rfl, trivial⟩
    have hboundary := boundary_of_jamBrings hj hbrings (decode_undefinedByte hb)
    exact ⟨_, hboundary, (step_of_boundary hboundary).trans (exec_undefinedByte hb 0 0 _)⟩

end Sys2Proof.Claims

/-! PROOF of O9. A jammed LAA is a fetch and nothing more, and a jammed fetch of one byte moves
nothing that a program can see. -/

namespace Sys2Proof.Claims

open Sys2Proof.Machine

/-- LAA is the no-operation (60_exceptions.md R223). -/
theorem exec_laa (s : State) : exec (.lrr .a .a) s = .next s :=
  congrArg Host.Outcome.next (writeReg_self s .a)

theorem step_of_jamLaa {s : State} {rest : List (Option Jam)}
    (h : s.intSource = some jamLaa :: rest) : step s = .next (jammed s 0xC0 []) :=
  (stepRunsJammedInstruction s jamLaa rest 0xC0 [] (.lrr .a .a) h ⟨rfl, trivial⟩ rfl).trans
    (exec_laa _)

/-- Nothing that a program works with is different. -/
structure SameProgram (s t : State) : Prop where
  regs : t.regs = s.regs
  flags : t.flags = s.flags
  stack : t.stack = s.stack
  sp : t.sp = s.sp
  mem : t.mem = s.mem
  memMap : t.memMap = s.memMap
  inputs : t.inputs = s.inputs

theorem SameProgram.refl (s : State) : SameProgram s s := ⟨rfl, rfl, rfl, rfl, rfl, rfl, rfl⟩

theorem SameProgram.trans {s u t : State} (h : SameProgram s u) (h' : SameProgram u t) :
    SameProgram s t :=
  ⟨h'.regs.trans h.regs, h'.flags.trans h.flags, h'.stack.trans h.stack, h'.sp.trans h.sp,
    h'.mem.trans h.mem, h'.memMap.trans h.memMap, h'.inputs.trans h.inputs⟩

theorem jammed_nil_sameProgram (s : State) (b : Byte) : SameProgram s (jammed s b []) :=
  ⟨rfl, rfl, jammed_nil_stack s b, rfl, rfl, rfl, rfl⟩

/-- The line held for `k` fetches. A processor that runs already goes on running, which is what the
induction needs of the fetches after the first. -/
theorem runsTo_of_held (k : Nat) (s : State)
    (h : s.intSource.take k = List.replicate k (some jamLaa)) :
    ∃ t, RunsTo k s t ∧ SameProgram s t ∧ (s.run = .running ∨ k ≠ 0 → t.run = .running) := by
  induction k generalizing s with
  | zero =>
    exact ⟨s, rfl, .refl s, fun hs => hs.resolve_right (· rfl)⟩
  | succ k ih =>
    cases hsrc : s.intSource with
    | nil => simp [hsrc, List.replicate_succ] at h
    | cons answer rest =>
      rw [hsrc, List.take_succ_cons, List.replicate_succ, List.cons.injEq] at h
      obtain ⟨rfl, hrest⟩ := h
      have htail : (jammed s 0xC0 []).intSource = rest := congrArg List.tail hsrc
      obtain ⟨t, hrun, hsame, hrunning⟩ := ih (jammed s 0xC0 []) (htail ▸ hrest)
      exact ⟨t, (runsTo_succ (step_of_jamLaa hsrc)).mpr hrun,
        (jammed_nil_sameProgram s 0xC0).trans hsame, fun _ => hrunning (.inl rfl)⟩

/-- Settles O9. -/
theorem heldLineNeverAdvances : Obligations.HeldLineNeverAdvances := by
  intro k s h
  obtain ⟨t, hrun, hsame, hrunning⟩ := runsTo_of_held k s h
  exact ⟨t, hrun, hsame.regs, hsame.flags, hsame.stack, hsame.sp, hsame.mem, hsame.memMap,
    hsame.inputs, fun hk => hrunning (.inr hk)⟩

end Sys2Proof.Claims

/-! PROOF of O10. The pop at the end of a routine finds what the push at its start left below. -/

namespace Sys2Proof.Claims

open Sys2Proof.Machine

/-- What a routine writes to its own PC does not reach the return address below it. -/
theorem push_setPc_pop (s : State) (t a : Addr) :
    ((s.push t).setPc a).pop.pc = s.pc ∧ ((s.push t).setPc a).pop.sp = s.sp := by
  have hsp : s.sp + 1 - 1 = s.sp := BitVec.add_sub_cancel ..
  have hpop : ((s.push t).setPc a).pop.sp = s.sp := hsp
  refine ⟨?_, hpop⟩
  obtain ⟨_, hreturn, _⟩ := push_spec s t
  calc ((s.push t).setPc a).pop.pc
    _ = stackGet (stackSet (s.push t).stack (s.sp + 1) a) s.sp := by rw [State.pc, hpop]; rfl
    _ = stackGet (s.push t).stack s.sp := stackGet_set_other _ _ (sp_ne_succ s.sp)
    _ = s.pc := hreturn

theorem jammed_nil_pc (s : State) (b : Byte) : (jammed s b []).pc = s.pc := by
  have hsp : (jammed s b []).sp = s.sp := rfl
  rw [State.pc, jammed_nil_stack, hsp, State.pc]

/-- Settles O10: RST pushes in the state after the interrupt cycle, in which PC is still the address
of the displaced instruction. -/
theorem jammedRestartReturns : Obligations.JammedRestartReturns := by
  intro s aaa x y rest hj
  have hstep := stepRunsJammedInstruction s _ rest _ [] (.rst aaa) hj ⟨rfl, trivial⟩
    (decodeOfEncode (.rst aaa) [] rfl)
  rw [exec_rst] at hstep
  refine ⟨_, hstep, push_pc _ _, rfl, rfl, rfl, rfl, fun a => ⟨_, exec_ret _, ?_⟩⟩
  have hback := push_setPc_pop (jammed s ((0b00 : BitVec 2) ++ aaa ++ (0b101 : BitVec 3)) [])
    (BitVec.ofNat 14 (8 * aaa.toNat)) a
  rwa [jammed_nil_pc] at hback

end Sys2Proof.Claims

/-! PROOF of O53 and O55. A step of the SIM8-01 in each of its three cases, by what its processor
finds at the instruction boundary. -/

namespace Sys2Proof.Claims

open Sys2Proof.Machine

/-! ### Requests -/

/-- Box B loses a request that it holds back before the latch (log 31). -/
theorem request_of_lost {b : Sim801} (hbox : b.boxB = .beforeLatch) (hheld : b.held = true) :
    b.request = b := by
  unfold Sim801.request
  split
  · rw [hheld, Bool.not_true, Bool.or_false]
  · next hafter =>
    rw [hbox] at hafter
    cases hafter

theorem request_of_latched {b : Sim801} (h : b.boxB = .afterLatch ∨ b.held = false) :
    b.request = { b with intLatch := true } := by
  unfold Sim801.request
  split
  · next hbefore =>
    have hheld : b.held = false := h.resolve_left (by simp [hbefore])
    rw [hheld, Bool.not_false, Bool.or_true]
  · rfl

theorem held_eq_true {b : Sim801} (hbox : b.stoppedOnly = true) (hs : b.cpu.run = .running) :
    b.held = true := by
  simp [Sim801.held, hbox, hs]

theorem held_eq_false {b : Sim801} (h : b.stoppedOnly = false ∨ b.cpu.run = .stopped) :
    b.held = false := by
  rcases h with h | h <;> simp [Sim801.held, h]

/-! ### The line to the processor -/

/-- The latch and box B decide whether a request reaches the processor. -/
theorem intLine_eq_true {b : Sim801} (hlatch : b.intLatch = true)
    (h : b.stoppedOnly = false ∨ b.cpu.run = .stopped) : b.intLine = true := by
  rw [Sim801.intLine, hlatch, held_eq_false h]
  rfl

theorem intLine_eq_false_of_latch {b : Sim801} (hlatch : b.intLatch = false) :
    b.intLine = false := by
  rw [Sim801.intLine, hlatch, Bool.false_and]

theorem intLine_eq_false_of_held {b : Sim801} (hheld : b.held = true) : b.intLine = false := by
  rw [Sim801.intLine, hheld, Bool.not_true, Bool.and_false]

theorem interrupted_of_intLine {b : Sim801} (h : b.intLine = true) :
    b.interrupted = { b.cpu with intSource := [some b.jam] } := by
  rw [Sim801.interrupted, h, if_pos rfl]

theorem interrupted_of_quiet {b : Sim801} (h : b.intLine = false) :
    b.interrupted = { b.cpu with intSource := [] } := by
  rw [Sim801.interrupted, h]
  rfl

/-- The board's schedule of input bytes is what the statements take an instruction to find on the
input ports. -/
theorem inputFor_eq_boardInput (b : Sim801) (i : Instr) : b.inputFor (some i) = boardInput b i := by
  cases i
  case inp port =>
    simp only [Sim801.inputFor, boardInput, Sim801.inputFrom, Sim801.inputFitted, Bool.and_eq_true,
      decide_eq_true_eq]
  all_goals rfl

/-! ### The step -/

/-- A request that reaches the processor is taken, and the latch is reset (R237, R238). -/
theorem board_step_taken {b : Sim801} {operands : List Byte} {i : Instr} {t : State}
    (hline : b.intLine = true) (hb : JamBrings b.cpu b.jam b.intPort operands)
    (hd : decode (b.intPort :: operands) = .ok (i, []))
    (h : exec i (jammed (boardCpu b i) b.intPort operands) = .next t) :
    b.step = .next { b with cpu := t, intLatch := false } := by
  have hboundary : b.interrupted.boundary = (some i, jammed b.interrupted b.intPort operands) := by
    rw [interrupted_of_intLine hline]
    exact boundary_of_jamBrings rfl ((sameBus_intSource b.cpu [some b.jam]).jamBrings rfl hb) hd
  have hexec : exec i { jammed b.interrupted b.intPort operands with
      inputs := b.inputFor (some i) } = .next t := by
    rw [inputFor_eq_boardInput, interrupted_of_intLine hline]
    exact h
  rw [board_step_some b hboundary hexec, hline, Bool.not_true, Bool.and_false]

/-- Where no request reaches a running processor, the instruction at PC is executed and the latch
stays (R237). -/
theorem board_step_fetched {b : Sim801} {v : Byte} {operands : List Byte} {i : Instr} {t : State}
    (hline : b.intLine = false) (hs : b.cpu.run = .running) (hb : FetchBrings b.cpu v operands)
    (hd : decode (v :: operands) = .ok (i, []))
    (h : exec i (fetched (boardCpu b i) v operands) = .next t) :
    b.step = .next { b with cpu := t } := by
  have hboundary : b.interrupted.boundary = (some i, fetched b.interrupted v operands) := by
    rw [interrupted_of_quiet hline]
    exact boundary_of_fetchBrings hs rfl ((sameBus_intSource b.cpu []).fetchBrings rfl hb) hd
  have hexec : exec i { fetched b.interrupted v operands with
      inputs := b.inputFor (some i) } = .next t := by
    rw [inputFor_eq_boardInput, interrupted_of_quiet hline]
    exact h
  rw [board_step_some b hboundary hexec, hline, Bool.not_false, Bool.and_true]

/-- Where none reaches a STOPPED one, it stays STOPPED. -/
theorem board_step_stopped {b : Sim801} (hline : b.intLine = false) (hs : b.cpu.run = .stopped) :
    b.step = .next { b with cpu := { b.cpu with intSource := [], inputs := [] } } := by
  have hboundary : b.interrupted.boundary = (none, { b.cpu with intSource := [] }) := by
    rw [interrupted_of_quiet hline]
    exact boundary_while_stopped hs rfl
  rw [board_step_none b hboundary, hline, Bool.not_false, Bool.and_true]

/-- Settles O53, clause by clause. -/
theorem boardInterruptLatch : Obligations.BoardInterruptLatch := by
  intro b
  refine ⟨fun ⟨hbox, hjumper, hs⟩ => request_of_lost hbox (held_eq_true hjumper hs),
    fun h => request_of_latched (h.imp_right held_eq_false),
    fun hlatch hjumper _ _ hb hd _ => board_step_taken (intLine_eq_true hlatch hjumper) hb hd,
    fun hquiet hs _ _ _ hb hd _ => board_step_fetched ?_ hs hb hd,
    fun hlatch => board_step_stopped (intLine_eq_false_of_latch hlatch)⟩
  rcases hquiet with hlatch | hjumper
  · exact intLine_eq_false_of_latch hlatch
  · exact intLine_eq_false_of_held (held_eq_true hjumper hs)

/-! ### Input ports -/

theorem boardInput_of_lines {b : Sim801} {port : BitVec 3}
    (hfitted : port.toNat < 2 + b.addedInputs) (htrue : b.dataTrue = true) :
    boardInput b (.inp port) = [b.inputLines[port.toNat]] :=
  if_pos ⟨hfitted, htrue⟩

theorem boardInput_of_no_lines {b : Sim801} {port : BitVec 3}
    (h : 2 + b.addedInputs ≤ port.toNat ∨ b.dataTrue = false) : boardInput b (.inp port) = [] := by
  refine if_neg fun ⟨hfitted, htrue⟩ => ?_
  rcases h with hunfitted | hfalse
  · exact absurd hfitted (Nat.not_lt.mpr hunfitted)
  · exact absurd htrue (by simp [hfalse])

theorem exec_inp_acc (port : BitVec 3) (s : State) :
    ∃ t, exec (.inp port) s = .next t ∧ t.regs.a = s.inputData port :=
  ⟨_, exec_inp port s, rfl⟩

/-- Settles O55: the board's step executes INP, which takes the byte of the schedule that the port's
lines give, or a free one where they give none. -/
theorem boardInputPorts : Obligations.BoardInputPorts := by
  intro b port hlatch hs hbyte
  have hbrings : FetchBrings b.cpu ((0b0100 : BitVec 4) ++ port ++ (1 : BitVec 1)) [] :=
    ⟨hbyte, trivial⟩
  obtain ⟨t, ht, hacc⟩ := exec_inp_acc port
    (fetched (boardCpu b (.inp port)) ((0b0100 : BitVec 4) ++ port ++ (1 : BitVec 1)) [])
  refine ⟨t, board_step_fetched (intLine_eq_false_of_latch hlatch) hs hbrings
    (decodeOfEncode (.inp port) [] rfl) ht, fun hfitted htrue => ?_, fun h => ?_⟩
  · exact hacc.trans (inputData_of_cons (boardInput_of_lines hfitted htrue) port)
  · exact hacc.trans (inputData_of_nil (boardInput_of_no_lines h) port)

end Sys2Proof.Claims

/-! PROOF of O54 and O56. The latches of the output ports and of the flags after one instruction,
and the bits of the teletype. -/

namespace Sys2Proof.Claims

open Sys2Proof.Machine

/-! ### Latches after one instruction -/

theorem out_of_ownCycle {i : Instr} {s : State} {port : BitVec 5} {v : Byte}
    (h : ownCycle i s = some (.output port v)) : i = .out port := by
  cases i
  case out q => cases h; rfl
  all_goals cases h

theorem inp_of_ownCycle {i : Instr} {s : State} {port : BitVec 3} {acc data : Byte} {f : Flags}
    (h : ownCycle i s = some (.input port acc data f)) : i = .inp port := by
  cases i
  case inp q => cases h; rfl
  all_goals cases h

/-- OUT to the port, and no other instruction, makes A the newest byte sent there. -/
theorem exec_lastOutput {i : Instr} {s t : State} (h : exec i s = .next t) (port : BitVec 5) :
    lastOutput t.events port = if i = .out port then some s.acc else lastOutput s.events port := by
  split
  · next hi =>
    subst hi
    rw [exec_out] at h
    cases h
    exact if_pos rfl
  · next hi =>
    rw [exec_events h]
    cases hown : ownCycle i s with
    | none => rfl
    | some e =>
      rcases lastOutput_cons e s.events port with ⟨v, rfl, _⟩ | ⟨_, hlast⟩
      · exact absurd (out_of_ownCycle hown) hi
      · exact hlast

theorem exec_lastFlags_inp {port : BitVec 3} {s t : State} (h : exec (.inp port) s = .next t) :
    lastFlags t.events = some s.flags := by
  cases h
  rfl

theorem exec_lastFlags_other {i : Instr} {s t : State} (h : exec i s = .next t)
    (hi : ∀ port, i ≠ .inp port) : lastFlags t.events = lastFlags s.events := by
  rw [exec_events h]
  cases hown : ownCycle i s with
  | none => rfl
  | some e =>
    rcases lastFlags_cons e s.events with ⟨port, _, _, _, rfl, _⟩ | ⟨_, hlast⟩
    · exact absurd (inp_of_ownCycle hown) (hi port)
    · exact hlast

theorem lastOutput_eq_none {events : List BusEvent} {port : BitVec 5}
    (h : ∀ v, BusEvent.output port v ∉ events) : lastOutput events port = none := by
  induction events with
  | nil => rfl
  | cons e rest ih =>
    rcases lastOutput_cons e rest port with ⟨v, rfl, _⟩ | ⟨_, hlast⟩
    · exact absurd List.mem_cons_self (h v)
    · exact hlast.trans (ih fun v hv => h v (List.mem_cons_of_mem e hv))

/-- The outputs that are read off the history are all there are in it. -/
theorem output_notMem_of_outputs {s : State} (h : s.outputs = []) (port : BitVec 5) (v : Byte) :
    BusEvent.output port v ∉ s.events := by
  intro hmem
  have hnone := List.filterMap_eq_nil_iff.mp h _ (List.mem_reverse.mpr hmem)
  cases hnone

/-! ### The pins of the output ports -/

/-- The latch of a port takes A by OUT to it and by nothing else (R239). -/
theorem exec_outputLatch {b : Sim801} {i : Instr} {t : State} (h : exec i b.cpu = .next t)
    (n : Fin 24) : Sim801.outputLatch { b with cpu := t } n =
      if i = .out (sim801Port n) then b.cpu.regs.a else b.outputLatch n := by
  have hlast := exec_lastOutput h (sim801Port n)
  split at hlast
  · next hi => rw [if_pos hi, Sim801.outputLatch, hlast]; rfl
  · next hi => rw [if_neg hi, Sim801.outputLatch, hlast]; rfl

theorem outputPins_of_fitted {b : Sim801} {n : Fin 24} (h : n.val < 4 + b.addedOutputs) :
    b.outputPins n = some (~~~b.outputLatch n) :=
  if_pos (decide_eq_true h)

/-- Settles O54, clause by clause. -/
theorem boardOutputsComplement : Obligations.BoardOutputsComplement := by
  intro b n
  refine ⟨fun hfitted hnone => ?_, fun hunfitted => ?_, fun i t h => ⟨fun hfitted => ?_, ?_, ?_⟩⟩
  · have hlast : lastOutput b.cpu.events (sim801Port n) = none :=
      lastOutput_eq_none (output_notMem_of_outputs hnone _)
    rw [outputPins_of_fitted hfitted, Sim801.outputLatch, hlast]
    rfl
  · exact if_neg (by simpa [Sim801.outputFitted] using hunfitted)
  · have hpins : Sim801.outputPins { b with cpu := t } n = _ := outputPins_of_fitted hfitted
    rw [hpins, exec_outputLatch h, outputPins_of_fitted hfitted]
    exact apply_ite (fun v => some (~~~v)) _ _ _
  · rintro ⟨port, rfl⟩
    rw [Sim801.flagLatch, exec_lastFlags_inp h]
    rfl
  · intro hi
    rw [Sim801.flagLatch, exec_lastFlags_other h hi]
    rfl

/-! ### The teletype -/

/-- A bit time changes nothing but the level of DATA IN and the latch. -/
theorem teletype_eq (b : Sim801) (k : TeletypeBit) :
    b.teletype k =
      { b.withDataIn (b.teletypeLevel k) with intLatch := (b.teletype k).intLatch } := by
  cases k with
  | start =>
    simp only [Sim801.teletype, Sim801.request]
    split <;> rfl
  | idle | data v => rfl

theorem withDataIn_line (b : Sim801) (v : Bool) :
    (b.withDataIn v).inputLines[0] = b.inputLines[0].extractLsb' 1 7 ++ BitVec.ofBool v :=
  Vector.getElem_set_self _

theorem withDataIn_other_line (b : Sim801) (v : Bool) {p : Fin 8} (hp : p ≠ 0) :
    (b.withDataIn v).inputLines[p] = b.inputLines[p] :=
  Vector.getElem_set_ne (by decide) p.isLt fun h => hp (Fin.ext h.symm)

/-- The level is bit 0 of the new byte (R240). -/
theorem dataIn_bit (x : Byte) (v : Bool) : (x.extractLsb' 1 7 ++ BitVec.ofBool v)[0] = v := by
  rw [← BitVec.getLsbD_eq_getElem, BitVec.getLsbD_append]
  simp

/-- The bits above it are those of the old one. -/
theorem dataIn_other_bit (x : Byte) (v : Bool) {j : Fin 8} (hj : j ≠ 0) :
    (x.extractLsb' 1 7 ++ BitVec.ofBool v)[j] = x[j] := by
  have hpos : 1 ≤ j.val := Nat.one_le_iff_ne_zero.mpr fun h => hj (Fin.ext h)
  have hlt : j.val - 1 < 7 := by omega
  rw [Fin.getElem_fin, Fin.getElem_fin, ← BitVec.getLsbD_eq_getElem, ← BitVec.getLsbD_eq_getElem,
    BitVec.getLsbD_append]
  simp [Nat.add_sub_cancel' hpos, Nat.not_lt.mpr hpos, hlt]

/-- The two levels that a bit may have stand for start and idle (log 33). -/
theorem teletypeLevel_start_ne_idle (b : Sim801) :
    b.teletypeLevel .start ≠ b.teletypeLevel .idle := by
  simp [Sim801.teletypeLevel]

/-- The start bit makes a request that reaches a STOPPED processor, whatever box B is (R240). -/
theorem teletype_start_of_stopped {b : Sim801} (hs : b.cpu.run = .stopped) :
    b.teletype .start = { b.withDataIn (b.teletypeLevel .start) with intLatch := true } :=
  request_of_latched (.inr (held_eq_false (.inr hs)))

/-- With LAA at the instruction port a taken interrupt executes nothing. -/
theorem board_step_laa {b : Sim801} (hline : b.intLine = true) (hport : b.intPort = 0xC0) :
    b.step = .next { b with
      cpu := jammed (boardCpu b (.lrr .a .a)) b.intPort []
      intLatch := false } := by
  have hbrings : JamBrings b.cpu b.jam b.intPort [] := ⟨rfl, trivial⟩
  have hdecode : decode [b.intPort] = .ok (.lrr .a .a, []) := by
    rw [hport]
    rfl
  exact board_step_taken hline hbrings hdecode (exec_laa _)

/-- With LAA there the start bit sets a STOPPED processor running, which goes on at PC. -/
theorem teletype_start_wakes {b : Sim801} (hs : b.cpu.run = .stopped) (hport : b.intPort = 0xC0) :
    ∃ c, (b.teletype .start).step = .next c ∧ c.cpu.run = .running ∧ c.cpu.pc = b.cpu.pc ∧
      c.cpu.regs = b.cpu.regs ∧ c.cpu.flags = b.cpu.flags ∧ c.intLatch = false := by
  rw [teletype_start_of_stopped hs]
  exact ⟨_, board_step_laa (intLine_eq_true rfl (.inr hs)) hport, rfl,
    jammed_nil_pc (boardCpu _ (.lrr .a .a)) _, rfl, rfl, rfl⟩

/-- After OUT to a port it shows the complement of A (R239). -/
theorem complement_of_out (b : Sim801) (n : Fin 24) : ∃ t,
    exec (.out (sim801Port n)) b.cpu = .next t ∧
      Sim801.complement { b with cpu := t } n = ~~~b.cpu.regs.a := by
  have hexec := exec_out (sim801Port n) b.cpu
  refine ⟨_, hexec, ?_⟩
  rw [Sim801.complement, exec_outputLatch hexec, if_pos rfl]

/-- Settles O56, clause by clause. -/
theorem boardTeletype : Obligations.BoardTeletype := by
  refine ⟨fun b k => ?_, teletypeLevel_start_ne_idle, fun b => teletype_start_wakes, fun b => ?_⟩
  · have hlines : (b.teletype k).inputLines = (b.withDataIn (b.teletypeLevel k)).inputLines := by
      rw [teletype_eq]
    refine ⟨?_, fun j hj => ?_, fun p hp => ?_, ?_, fun hk => ?_⟩
    · simp only [Sim801.teletypeIn, hlines, withDataIn_line, dataIn_bit]
    · simp only [hlines, withDataIn_line, dataIn_other_bit _ _ hj]
    · simp only [hlines, withDataIn_other_line _ _ hp]
    · rw [teletype_eq]
      rfl
    · cases k with
      | start => exact absurd rfl hk
      | idle | data v => rfl
  · obtain ⟨t, ht, hout⟩ := complement_of_out b 2
    obtain ⟨u, hu, hreader⟩ := complement_of_out b 3
    refine ⟨⟨t, ht, ?_⟩, u, hu, ?_⟩
    · rw [Sim801.teletypeOut, hout, BitVec.getElem_not]
    · rw [Sim801.readerControl, hreader, BitVec.getElem_not]

end Sys2Proof.Claims

/-! PROOF of O11. A power-up state may hold any memory, in canonical form or not, so the invariant
of O14 does not hold of it; what the oldest cycle is needs only its part that says nothing of
memory, and that the history only grows at its newest end. -/

namespace Sys2Proof.Claims

open Sys2Proof.Machine

/-! ### The history only grows -/

theorem fetchRest_events_suffix (s : State) (b : Byte) (src2 src3 : BusSource) :
    s.events <:+ (s.fetchRest b src2 src3).2.events := by
  unfold State.fetchRest
  split
  · exact List.suffix_append [_, _] s.events
  · exact List.suffix_cons _ s.events
  · exact List.suffix_rfl

theorem fetchJammed_events_suffix (s : State) (j : Jam) :
    .interruptFetch s.pc (s.sourceByte j.opcode) :: s.events <:+ (s.fetchJammed j).2.events :=
  fetchRest_events_suffix (s.fetchInterrupt j).2 _ _ _

theorem fetchInstr_events_suffix (s : State) : s.events <:+ s.fetchInstr.2.events :=
  (List.suffix_cons _ _).trans (fetchRest_events_suffix s.fetchOpcode.2 _ _ _)

theorem exec_events_suffix {i : Instr} {s t : State} (h : exec i s = .next t) :
    s.events <:+ t.events :=
  ⟨_, (exec_events h).symm⟩

/-! ### The first cycle -/

/-- The oldest cycle is an interrupt cycle that sent out address 0. -/
def BeganAtZero (es : List BusEvent) : Prop := ∃ b, [.interruptFetch 0 b] <:+ es

theorem BeganAtZero.of_suffix {es es' : List BusEvent} (h : BeganAtZero es) (hs : es <:+ es') :
    BeganAtZero es' := by
  obtain ⟨b, hb⟩ := h
  exact ⟨b, hb.trans hs⟩

theorem BeganAtZero.oldest {es : List BusEvent} (h : BeganAtZero es) {e : BusEvent}
    (he : es.getLast? = some e) : ∃ b, e = .interruptFetch 0 b := by
  obtain ⟨b, newer, rfl⟩ := h
  rw [List.getLast?_concat] at he
  exact ⟨b, (Option.some.inj he).symm⟩

/-- Power-up has left a processor that waits for its first interrupt, or that interrupt has been the
first cycle (70_reset_and_hazards.md R252). -/
def WaitingOrBegan (s : State) : Prop := Untouched s ∨ BeganAtZero s.events

/-- An interrupt cycle is either not the first one, or it sends out the cleared PC. -/
theorem WaitingOrBegan.interruptFetch {s : State} (h : WaitingOrBegan s) (b : Byte) :
    BeganAtZero (.interruptFetch s.pc b :: s.events) := by
  rcases h with ⟨_, _, hstack, _, hevents⟩ | hbegan
  · have hpc : s.pc = 0 := hstack s.sp
    rw [hpc, hevents]
    exact ⟨b, List.suffix_rfl⟩
  · exact hbegan.of_suffix (List.suffix_cons _ _)

/-- A RUNNING processor waits no longer. -/
theorem WaitingOrBegan.of_running {s : State} (h : WaitingOrBegan s) (hs : s.run = .running) :
    BeganAtZero s.events := by
  refine h.resolve_left ?_
  rintro ⟨hstopped, _⟩
  rw [hs] at hstopped
  cases hstopped

/-- A taken interrupt or a fetch puts its cycles behind the oldest one, and a quiet boundary while
STOPPED has none. -/
theorem WaitingOrBegan.step_next {s t : State} (hinv : WaitingOrBegan s) (h : step s = .next t) :
    WaitingOrBegan t := by
  rcases step_cases s with ⟨j, rest, _, e⟩ | ⟨_, _, e⟩ | ⟨_, hrun, e⟩
  · have hinv' : WaitingOrBegan { s with intSource := rest } := hinv
    have hfetch := (hinv'.interruptFetch _).of_suffix (fetchJammed_events_suffix _ j)
    exact .inr (hfetch.of_suffix (exec_events_suffix (e ▸ h)))
  · rw [e] at h
    cases h
    exact hinv
  · have hfetch := (hinv.of_running hrun).of_suffix
      (fetchInstr_events_suffix { s with intSource := s.intSource.tail })
    exact .inr (hfetch.of_suffix (exec_events_suffix (e ▸ h)))

theorem WaitingOrBegan.of_poweredUp {s : State} (h : PoweredUp s) : WaitingOrBegan s := by
  obtain ⟨f, k, mem, map, src, ins, rfl⟩ := h
  exact .inl (powerUp_untouched f k)

/-! ### Along a run -/

/-- What every step keeps holds at the end of a run if it holds at its start. -/
theorem reaches_keeps {I : State → Prop} (keeps : ∀ s t, I s → step s = .next t → I t)
    {s t : State} (h : Reaches s t) : I s → I t :=
  reaches_induction (P := fun s t => I s → I t) (fun _ => id)
    (fun s u _ hstep hrest hs => hrest (keeps s u hs hstep)) h

/-- Settles O11: a processor that still waits has no event, and one that has begun began at 0. -/
theorem firstActivityIsInterrupt : Obligations.FirstActivityIsInterrupt := by
  intro s t hs hrun e he
  have hinv : WaitingOrBegan t :=
    reaches_keeps (fun _ _ => WaitingOrBegan.step_next) hrun (.of_poweredUp hs)
  rcases hinv with ⟨_, _, _, _, hnone⟩ | hbegan
  · simp [hnone] at he
  · exact hbegan.oldest he

end Sys2Proof.Claims

/-! PROOF of O12 and O4. What power-up leaves, and the words that the manual prints. -/

namespace Sys2Proof.Claims

open Sys2Proof.Machine

/-- Settles O12: PC is one of the eight cleared registers, whichever the pointer names. -/
theorem powerUpState : Obligations.PowerUpState := by
  intro f k
  obtain ⟨hrun, hregs, hstack, hir, _⟩ := powerUp_untouched f k
  exact ⟨hregs, hstack, hstack k, hrun, hir, powerUp_flags f k, powerUp_sp f k⟩

theorem decode_of_encode_eq {i : Instr} {bytes : List Byte} (h : encode i = bytes)
    (hwf : i.WellFormed) : decode bytes = .ok (i, []) := by
  have hdecode := decodeOfEncode i [] hwf
  rwa [List.append_nil, h] at hdecode

/-- Settles O4: each printed word is the canonical encoding of its instruction. -/
theorem printedWordsDecode : Obligations.PrintedWordsDecode := by
  refine ⟨?_, ?_, ?_, ?_, ?_, ?_, ?_, ?_, ?_, ?_, ?_, ?_, ?_⟩
  all_goals exact decode_of_encode_eq rfl rfl

end Sys2Proof.Claims
